-- ==== Sys2Proof/Word.lean ====
section
/-! DEFINITION. The widths of the frame codec block's values (00_scope.md R4, R6). Every value is an
unsigned bit vector unless a rule reads it as signed (R8). -/

namespace Sys2Proof

/-- A byte of a frame, and the CRC state (`CRC_WIDTH`, R4). -/
abbrev Byte := BitVec 8

/-- A protocol field (`WORD_WIDTH`, R4): a command word, an argument, a raw sample. -/
abbrev Word := BitVec 16

/-- The held sample `SMP` (`SAMPLE_WIDTH`, R4). -/
abbrev Sample := BitVec 32

/-- A request word (`REQ_WIDTH`, R4). -/
abbrev ReqWord := BitVec 128

end Sys2Proof
end

