-- ==== Sys2Proof/Syntax.lean ====
section
/-! DEFINITION. The instructions: one constructor per row of spec/opcode_table.json, with the operands its rule uses
(30_encoding.md R37 column "Operands used"; R47 and R52 for the sensor command words). -/

namespace Sys2Proof

/-- One constructor per row of the opcode table: the 14 operations and the two illegal codes of the request word (R37),
then the seven sensor command words (R47), each standing for the pseudo-instruction the spec gives it (R52). -/
inductive Instr where
  /-- `NOP`, R71. -/
  | nop
  /-- `SRST`, R72. -/
  | srst
  /-- `SWAP16 A`, R55. -/
  | swap16 (a : Word)
  /-- `CRC_INIT`, R56. -/
  | crcInit
  /-- `CRC_UPD A`, R57: the whole field is kept, the operation uses `A[7:0]` only (R39). -/
  | crcUpd (a : Word)
  /-- `CRC_READ`, R58. -/
  | crcRead
  /-- `CRC2 A`, R59. -/
  | crc2 (a : Word)
  /-- `ENC2 A`, R61. -/
  | enc2 (a : Word)
  /-- `ENC5 A, B`, R62. -/
  | enc5 (a b : Word)
  /-- `ENC5_O2_LO0 A, B`, R63. -/
  | enc5O2Lo0 (a b : Word)
  /-- `ENC5_O2_LO21 A, B`, R64. -/
  | enc5O2Lo21 (a b : Word)
  /-- `VAL_MEAS rx0, rx1, rx2`, R67. -/
  | valMeas (rx0 rx1 rx2 : Byte)
  /-- `VAL_SET rx0, ..., rx8`, R69. -/
  | valSet (rx0 rx1 rx2 rx3 rx4 rx5 rx6 rx7 rx8 : Byte)
  /-- `VAL_DISC rx0, rx1, rx2`, R68. -/
  | valDisc (rx0 rx1 rx2 : Byte)
  /-- Illegal operation code 0xE, R49. -/
  | illegalE
  /-- Illegal operation code 0xF, R49. -/
  | illegalF
  /-- Sensor command `reset` 0x0006: `CMD_RESET`, R52. -/
  | cmdReset
  /-- Sensor command `stop-continuous-read` 0x3FF9: `CMD_STOP`, R52. -/
  | cmdStop
  /-- Sensor command `read-scale-and-offset` 0x3661: `CMD_READ_SETTINGS`, R52. -/
  | cmdReadSettings
  /-- Sensor command `continuous-read-air` 0x3608: `CMD_START_AIR`, R52. -/
  | cmdStartAir
  /-- Sensor command `continuous-read-O2` 0x3603: `CMD_START_O2`, R52. -/
  | cmdStartO2
  /-- Sensor command `continuous-read-air+O2-mixture` 0x3632: its frame shape is `MIX_FRAME_SHAPE` (R5, R47);
  `arg` is sent when that shape has an argument. -/
  | cmdReadMixture (arg : Word)
  /-- Sensor command `change-O2-fraction` 0xE17D with the fraction `f`: `CMD_SET_O2_LO0 f` or `CMD_SET_O2_LO21 f`
  (R52), by `O2_BOUND_OF` (R5). -/
  | cmdChangeO2 (f : Word)
  deriving DecidableEq, Repr

/-- What the requester presents in one go: a request word on the request port (R19), or one of the spec's named
pseudo-instructions (R52) by its sensor command word with an operand word (log entries 5 and 8). -/
inductive Request where
  | word (w : ReqWord)
  | command (cmd arg : Word)
  deriving DecidableEq, Repr

/-- What decoding answers. -/
inductive Decoded where
  /-- A row of the opcode table. -/
  | instr (i : Instr)
  /-- A legal operation code with a reserved field that is not zero (R38). -/
  | reservedBits
  /-- A bare command word that R47 does not list. -/
  | unlistedCommand (cmd : Word)
  deriving DecidableEq, Repr

/-- The seven sensor command words by name (R47). -/
inductive Command where
  | reset
  | stopContinuousRead
  | readScaleAndOffset
  | continuousReadAir
  | continuousReadO2
  | continuousReadMixture
  | changeO2Fraction
  deriving DecidableEq, Repr

end Sys2Proof
end

