-- ==== Sys2Proof/Decode.lean ====
section
/-! DEFINITION. Decoding and encoding of requests (30_encoding.md R36 to R41, R47, R49 to R52). -/

namespace Sys2Proof

/-! ### The fields of the request word (R36) -/

/-- `REQ.op = REQ[3:0]`. -/
def reqOp (w : ReqWord) : BitVec 4 := w.extractLsb' 0 4

/-- `rsv0 = REQ[15:4]`. -/
def reqRsv0 (w : ReqWord) : BitVec 12 := w.extractLsb' 4 12

/-- `REQ.A = REQ[31:16]`. -/
def reqA (w : ReqWord) : Word := w.extractLsb' 16 16

/-- `REQ.B = REQ[47:32]`. -/
def reqB (w : ReqWord) : Word := w.extractLsb' 32 16

/-- `REQ.RX[k] = REQ[48 + 8k + 7 : 48 + 8k]`. -/
def reqRx (w : ReqWord) (k : Nat) : Byte := w.extractLsb' (48 + 8 * k) 8

/-- `rsv1 = REQ[127:120]`. -/
def reqRsv1 (w : ReqWord) : Byte := w.extractLsb' 120 8

/-- R38: a reserved field is not zero. -/
def reservedNonzero (w : ReqWord) : Bool := reqRsv0 w != 0 || reqRsv1 w != 0

/-- A legal operation code: the reserved fields are checked before the operation runs (R22, R38). -/
def decodeLegal (w : ReqWord) (i : Instr) : Decoded :=
  if reservedNonzero w then .reservedBits else .instr i

/-- R37: the operation code selects one operation. The illegal codes come first in the order of R22 and R80: they
are taken whatever the reserved fields hold (R49). -/
def decodeReq (w : ReqWord) : Decoded :=
  match (reqOp w).toNat with
  | 0x0 => decodeLegal w .nop
  | 0x1 => decodeLegal w .srst
  | 0x2 => decodeLegal w (.swap16 (reqA w))
  | 0x3 => decodeLegal w .crcInit
  | 0x4 => decodeLegal w (.crcUpd (reqA w))
  | 0x5 => decodeLegal w .crcRead
  | 0x6 => decodeLegal w (.crc2 (reqA w))
  | 0x7 => decodeLegal w (.enc2 (reqA w))
  | 0x8 => decodeLegal w (.enc5 (reqA w) (reqB w))
  | 0x9 => decodeLegal w (.enc5O2Lo0 (reqA w) (reqB w))
  | 0xA => decodeLegal w (.enc5O2Lo21 (reqA w) (reqB w))
  | 0xB => decodeLegal w (.valMeas (reqRx w 0) (reqRx w 1) (reqRx w 2))
  | 0xC => decodeLegal w (.valSet (reqRx w 0) (reqRx w 1) (reqRx w 2) (reqRx w 3) (reqRx w 4) (reqRx w 5)
      (reqRx w 6) (reqRx w 7) (reqRx w 8))
  | 0xD => decodeLegal w (.valDisc (reqRx w 0) (reqRx w 1) (reqRx w 2))
  | 0xE => .instr .illegalE
  | _ => .instr .illegalF  -- the four bits leave 0xF alone

/-! ### The sensor command words (R47) -/

/-- The value of each sensor command word, R47. -/
def commandWord : Command → Word
  | .reset => 0x0006
  | .stopContinuousRead => 0x3FF9
  | .readScaleAndOffset => 0x3661
  | .continuousReadAir => 0x3608
  | .continuousReadO2 => 0x3603
  | .continuousReadMixture => 0x3632
  | .changeO2Fraction => 0xE17D

/-- The command a word names, if R47 lists the word. -/
def commandOf (w : Word) : Option Command :=
  if w = commandWord .reset then some .reset
  else if w = commandWord .stopContinuousRead then some .stopContinuousRead
  else if w = commandWord .readScaleAndOffset then some .readScaleAndOffset
  else if w = commandWord .continuousReadAir then some .continuousReadAir
  else if w = commandWord .continuousReadO2 then some .continuousReadO2
  else if w = commandWord .continuousReadMixture then some .continuousReadMixture
  else if w = commandWord .changeO2Fraction then some .changeO2Fraction
  else none

/-- The instruction of a named command. A command without an operand ignores the operand word (log entry 8). -/
def commandInstr (c : Command) (arg : Word) : Instr :=
  match c with
  | .reset => .cmdReset
  | .stopContinuousRead => .cmdStop
  | .readScaleAndOffset => .cmdReadSettings
  | .continuousReadAir => .cmdStartAir
  | .continuousReadO2 => .cmdStartO2
  | .continuousReadMixture => .cmdReadMixture arg
  | .changeO2Fraction => .cmdChangeO2 arg

/-- A bare sensor command word, by the list of R47. -/
def decodeCommand (cmd arg : Word) : Decoded :=
  match commandOf cmd with
  | some c => .instr (commandInstr c arg)
  | none => .unlistedCommand cmd

/-- Decoding of whatever the requester presents: total. -/
def decode : Request → Decoded
  | .word w => decodeReq w
  | .command cmd arg => decodeCommand cmd arg

/-! ### Encoding -/

/-- A field's value at the bits R36 gives it, the lowest being `lo`. -/
def fieldAt {n : Nat} (lo : Nat) (v : BitVec n) : ReqWord := v.setWidth 128 <<< lo

/-- A request word from its fields, R36: the reserved fields 15:4 and 127:120 stay zero. -/
def packRequest (op : BitVec 4) (a b : Word) (rx0 rx1 rx2 rx3 rx4 rx5 rx6 rx7 rx8 : Byte) : ReqWord :=
  fieldAt 0 op ||| fieldAt 16 a ||| fieldAt 32 b ||| fieldAt 48 rx0 ||| fieldAt 56 rx1 ||| fieldAt 64 rx2
    ||| fieldAt 72 rx3 ||| fieldAt 80 rx4 ||| fieldAt 88 rx5 ||| fieldAt 96 rx6 ||| fieldAt 104 rx7
    ||| fieldAt 112 rx8

/-- A request that uses `A` and `B` at most: the receive window assembles as zero (R51). -/
def packOperands (op : BitVec 4) (a b : Word) : Request :=
  .word (packRequest op a b 0 0 0 0 0 0 0 0 0)

/-- A request that uses the receive window: `A` and `B` assemble as zero (R51). -/
def packWindow (op : BitVec 4) (rx0 rx1 rx2 rx3 rx4 rx5 rx6 rx7 rx8 : Byte) : Request :=
  .word (packRequest op 0 0 rx0 rx1 rx2 rx3 rx4 rx5 rx6 rx7 rx8)

/-- The encoding of an instruction: "unused fields, reserved fields and unused `RX` bytes assemble as zero" (R51). -/
def encode : Instr → Request
  | .nop => packOperands 0x0 0 0
  | .srst => packOperands 0x1 0 0
  | .swap16 a => packOperands 0x2 a 0
  | .crcInit => packOperands 0x3 0 0
  | .crcUpd a => packOperands 0x4 a 0
  | .crcRead => packOperands 0x5 0 0
  | .crc2 a => packOperands 0x6 a 0
  | .enc2 a => packOperands 0x7 a 0
  | .enc5 a b => packOperands 0x8 a b
  | .enc5O2Lo0 a b => packOperands 0x9 a b
  | .enc5O2Lo21 a b => packOperands 0xA a b
  | .valMeas rx0 rx1 rx2 => packWindow 0xB rx0 rx1 rx2 0 0 0 0 0 0
  | .valSet rx0 rx1 rx2 rx3 rx4 rx5 rx6 rx7 rx8 => packWindow 0xC rx0 rx1 rx2 rx3 rx4 rx5 rx6 rx7 rx8
  | .valDisc rx0 rx1 rx2 => packWindow 0xD rx0 rx1 rx2 0 0 0 0 0 0
  | .illegalE => packOperands 0xE 0 0
  | .illegalF => packOperands 0xF 0 0
  | .cmdReset => .command (commandWord .reset) 0
  | .cmdStop => .command (commandWord .stopContinuousRead) 0
  | .cmdReadSettings => .command (commandWord .readScaleAndOffset) 0
  | .cmdStartAir => .command (commandWord .continuousReadAir) 0
  | .cmdStartO2 => .command (commandWord .continuousReadO2) 0
  | .cmdReadMixture arg => .command (commandWord .continuousReadMixture) arg
  | .cmdChangeO2 f => .command (commandWord .changeO2Fraction) f

/-! ### The opcode table's view -/

/-- The request whose first `nbits` bits are `w`, as the opcode table numbers them: the table's 16-bit rows are bare
sensor command words (operand word above them), every other width belongs to a request word (log entry 10). -/
def tableRequest (nbits w : Nat) : Request :=
  if nbits = 16 then .command (BitVec.ofNat 16 w) (BitVec.ofNat 16 (w >>> 16))
  else .word (BitVec.ofNat 128 w)

/-- The instruction the decoder reads from an instruction whose bits are `w`; `none` where it refuses. -/
def decodeTableWord (nbits w : Nat) : Option Instr :=
  match decode (tableRequest nbits w) with
  | .instr i => some i
  | .reservedBits => none
  | .unlistedCommand _ => none

end Sys2Proof
end

