-- ==== Sys2Proof/Machine/Operands.lean ====
section
/-! DEFINITION. The operand forms: bytes of a word in wire order, extensions, the signed reading and the clamp
(00_scope.md R7, R8; 20_memory.md R26; 30_encoding.md R39, R40; 41_encoder.md R60). -/

namespace Sys2Proof.Machine

/-- `w[15:8]`: the byte that goes first on the wire (R26). -/
def hiByte (w : Word) : Byte := w.extractLsb' 8 8

/-- `w[7:0]`: the byte that goes second on the wire (R26). -/
def loByte (w : Word) : Byte := w.extractLsb' 0 8

/-- `{first, second}`: a 16-bit field from its two bytes in wire order, most significant first (R26). -/
def wireWord (first second : Byte) : Word := first ++ second

/-- The two bytes of a field in wire order: `[w[15:8], w[7:0]]` (R7, R26). -/
def wireBytes (w : Word) : List Byte := [hiByte w, loByte w]

/-- `zext_16` of a byte (R8). -/
def zext16 (b : Byte) : Word := b.setWidth 16

/-- `sext_32` of a raw sample (R8, R67). -/
def sext32 (w : Word) : Sample := w.signExtend 32

/-- `sval`: the two's-complement value (R8). -/
def sval (w : Word) : Int := w.toInt

/-- `clamp(v, lo, hi) = min(max(v, lo), hi)`, R60. -/
def clamp (v lo hi : Int) : Int := min (max v lo) hi

/-- The unsigned 16-bit word of a clamped value (R60; `f[15:0]` of R63, R64). -/
def argWord (f : Int) : Word := BitVec.ofInt 16 f

end Sys2Proof.Machine
end

