-- ==== Sys2Proof/Machine/Parameters.lean ====
section
/-! DEFINITION. The block's fixed parameters (00_scope.md R4), less the layout of the request word, which Decode.lean
holds, and the widths, which Word.lean holds. None of them can be changed by a request (10_state.md R12). -/

namespace Sys2Proof.Machine

/-- `CRC_POLY`, R4. -/
def crcPoly : Byte := 0x31

/-- `CRC_INIT`, R4: the CRC's initial value. -/
def crcSeed : Byte := 0xFF

/-- `NO_DATA_CRC`, R4: the sentinel CRC byte. -/
def noDataCrc : Byte := 0x00

/-- `O2_MAX`, R4. -/
def o2Max : Int := 100

/-- `O2_MIN_A`, R4: the lower bound of `ENC5_O2_LO0`. -/
def o2MinA : Int := 0

/-- `O2_MIN_B`, R4: the lower bound of `ENC5_O2_LO21`. -/
def o2MinB : Int := 21

/-- `DEV_ADDR`, R4 and R48: the constant output, "at all times, reset included" (R24). -/
def devAddr : Byte := 0x2E

/-- `ACC_RESET`, R4 and R24. -/
def accReset : Byte := 0xFF

/-- `SMP_RESET`, R4 and R24. -/
def smpReset : Sample := 0x00000000

/-- `HV_RESET`, R4 and R24. -/
def hvReset : BitVec 1 := 0

end Sys2Proof.Machine
end

