-- ==== Sys2Proof/Machine/Crc.lean ====
section
/-! DEFINITION. The CRC-8 function (40_codec.md R53, R54). -/

namespace Sys2Proof.Machine

/-- One shift of the loop in R53: the bit shifted out of `c[7]` is discarded. -/
def crcShift (c : Byte) : Byte := if c.msb then (c <<< 1) ^^^ crcPoly else c <<< 1

/-- `n` shifts. -/
def crcShifts : Nat → Byte → Byte
  | 0, c => c
  | n + 1, c => crcShifts n (crcShift c)

/-- `crc8_byte(c, b)`, R53: the byte is XORed in, then eight shifts. -/
def crc8Byte (c b : Byte) : Byte := crcShifts 8 (c ^^^ b)

/-- `crc8(s)`, R54: from the seed, in frame order, no final XOR. -/
def crc8 (s : List Byte) : Byte := s.foldl crc8Byte crcSeed

/-- The CRC of a 16-bit field in wire order. -/
def crcOfWord (w : Word) : Byte := crc8 (wireBytes w)

end Sys2Proof.Machine
end

