-- ==== Sys2Proof/Machine/State.lean ====
section
/-! DEFINITION. The state of the machine: the block's three registers (10_state.md R11), and its two ports (R19, R20) as
plain data, so that one step can read the request the requester presents and leave the response. -/

namespace Sys2Proof.Machine

/-- The status codes of 60_exceptions.md R78, by name; their numbers are `Status.code`. -/
inductive Status where
  | ok
  | crcErr
  | noData
  | illegalOp
  | reservedBits
  deriving DecidableEq, Repr

/-- The response port's record, R20. -/
structure Response where
  /-- `RSP.st`: the status code. -/
  st : BitVec 4
  /-- `RSP.r0`: result word 0. -/
  r0 : Word
  /-- `RSP.r1`: result word 1. -/
  r1 : Word
  /-- `RSP.r2`: result word 2. -/
  r2 : Word
  /-- `RSP.fl`: the flags. -/
  fl : BitVec 8
  /-- `RSP.txlen`: the number of valid bytes in `tx`. -/
  txlen : BitVec 3
  /-- `RSP.tx[0..4]`: the command frame built, `tx[0]` first on the bus. -/
  tx : Vector Byte 5
  /-- `RSP.smp`: `SMP` after the step. -/
  smp : Sample
  /-- `RSP.hv`: `HV` after the step. -/
  hv : BitVec 1
  deriving DecidableEq, Repr

/-- What reaches the block from outside, in the order it arrives: a request (R13, R34), or the reset event of
70_reset_and_hazards.md R85, which falls between requests (R86). -/
inductive Input where
  | present (r : Request)
  | reset
  deriving DecidableEq, Repr

/-- The machine. `acc`, `smp`, `hv` are "the block's complete state" (R11); `inputs` and `rsp` are the model's fields for
the two ports, which are "ports, not state" (R11; log entry 1). -/
structure State where
  /-- `ACC`, the CRC accumulator (R14). -/
  acc : Byte
  /-- `SMP`, the held sample (R15). -/
  smp : Sample
  /-- `HV`, have-valid-sample (R16). -/
  hv : BitVec 1
  /-- The request port: what the requester presents and has not been served, in order (R17: "the sequence of requests is
  its only program"). -/
  inputs : List Input
  /-- The response port: the response the last step delivered, `none` if it delivered none (R87). -/
  rsp : Option Response
  deriving DecidableEq, Repr

/-- The block raises no trap, exception or interrupt and has no fault (60_exceptions.md R73): every condition is a
status in a response. The type has no constructor: no step of the model can answer with a fault. -/
inductive Fault where
  deriving DecidableEq, Repr

/-- Why a step can be refused. -/
inductive Refusal where
  /-- Raised by `exec`'s arm of an instruction that has no meaning yet. Safe: the run stops there. No arm answers so. -/
  | notModelled (mnemonic : String)
  /-- Raised when a bare 16-bit command word is presented that R47 does not list: no pseudo-instruction of R52 bears that
  name, so there is nothing to run (log entry 8). Safe: the run stops there. Request words are never refused. -/
  | unlistedCommand (cmd : Word)
  deriving DecidableEq, Repr

/-- The machine right after reset, R24: nothing presented, and no response "until the first request". -/
def State.reset : State :=
  { acc := accReset, smp := smpReset, hv := hvReset, inputs := [], rsp := none }

end Sys2Proof.Machine
end

