-- ==== Sys2Proof/Machine/Ops.lean ====
section
/-! DEFINITION. The operations over the registers and the response port: the response defaults (10_state.md R21), the
delivery of a response, `raise` (60_exceptions.md R79, the block's only "exception"; there is no trap entry and no
return, R82), the register writes, and the frames of a response (30_encoding.md R42 to R44). -/

namespace Sys2Proof.Machine

/-- The number of a status, R78. -/
def Status.code : Status → BitVec 4
  | .ok => 0
  | .crcErr => 1
  | .noData => 2
  | .illegalOp => 3
  | .reservedBits => 4

/-- The response before an operation's rule runs, R21. (`smp` and `hv` are set when it is delivered.) -/
def Response.defaults : Response :=
  { st := 0, r0 := 0, r1 := 0, r2 := 0, fl := 0, txlen := 0, tx := #v[0, 0, 0, 0, 0], smp := 0, hv := 0 }

/-- The end of a step: `smp` and `hv` are set "from the state as it stands after the step" (R21), and the response is
delivered. -/
def State.deliver (s : State) (r : Response) : State :=
  { s with rsp := some { r with smp := s.smp, hv := s.hv } }

/-- `raise st`, R79: every register keeps its value, the response has its defaults but for the status. -/
def State.raise (s : State) (st : Status) : State :=
  s.deliver { Response.defaults with st := st.code }

/-- `ACC <- v` (R9). -/
def State.setAcc (s : State) (v : Byte) : State := { s with acc := v }

/-- `SMP <- sext_32(raw); HV <- 1`, together (R31, R67). -/
def State.holdSample (s : State) (raw : Word) : State := { s with smp := sext32 raw, hv := 1 }

/-- Every register to its reset value: `SRST` (R72) and the reset event (R85). -/
def State.resetRegs (s : State) : State := { s with acc := accReset, smp := smpReset, hv := hvReset }

/-- The constant output `DEV_ADDR`, in every state (R20, R48). -/
def State.devAddrOut (_ : State) : Byte := devAddr

/-- A frame of at most five bytes in the response: `txlen` bytes, "the bytes `tx[txlen..4]` stay 0x00" (R42). -/
def Response.withFrame (r : Response) (f : List Byte) : Response :=
  { r with
    txlen := BitVec.ofNat 3 f.length
    tx := #v[f.getD 0 0, f.getD 1 0, f.getD 2 0, f.getD 3 0, f.getD 4 0] }

/-- The 2-byte command frame, R43: no CRC. -/
def cmd2Frame (cmd : Word) : List Byte := wireBytes cmd

/-- The 5-byte command frame, R44: the CRC covers the argument only. -/
def cmd5Frame (cmd arg : Word) : List Byte := wireBytes cmd ++ wireBytes arg ++ [crcOfWord arg]

end Sys2Proof.Machine
end

