-- ==== Sys2Proof/Machine/Codec.lean ====
section
/-! DEFINITION. The frame codec operations (40_codec.md R55 to R59). -/

namespace Sys2Proof.Machine

/-- The default response with result word 0. -/
def resultWord (r0 : Word) : Response := { Response.defaults with r0 := r0 }

/-- `SWAP16`, R55: `RSP.r0 <- {A[7:0], A[15:8]}`. -/
def execSwap16 (a : Word) (s : State) : Host.Outcome State Fault Refusal :=
  .next (s.deliver (resultWord (loByte a ++ hiByte a)))

/-- `CRC_INIT`, R56. -/
def execCrcInit (s : State) : Host.Outcome State Fault Refusal :=
  .next ((s.setAcc crcSeed).deliver (resultWord (zext16 crcSeed)))

/-- `CRC_UPD`, R57: `A[15:8]` is ignored. -/
def execCrcUpd (a : Word) (s : State) : Host.Outcome State Fault Refusal :=
  .next ((s.setAcc (crc8Byte s.acc (loByte a))).deliver (resultWord (zext16 (crc8Byte s.acc (loByte a)))))

/-- `CRC_READ`, R58. -/
def execCrcRead (s : State) : Host.Outcome State Fault Refusal :=
  .next (s.deliver (resultWord (zext16 s.acc)))

/-- `CRC2`, R59: `ACC` is neither read nor written. -/
def execCrc2 (a : Word) (s : State) : Host.Outcome State Fault Refusal :=
  .next (s.deliver (resultWord (zext16 (crcOfWord a))))

end Sys2Proof.Machine
end

