-- ==== Sys2Proof/Machine/Control.lean ====
section
/-! DEFINITION. `NOP`, `SRST` (43_control.md) and the two illegal codes (30_encoding.md R49). -/

namespace Sys2Proof.Machine

/-- `NOP`, R71: "no effect; the response has its defaults". -/
def execNop (s : State) : Host.Outcome State Fault Refusal := .next (s.deliver Response.defaults)

/-- `SRST`, R72. -/
def execSrst (s : State) : Host.Outcome State Fault Refusal := .next (s.resetRegs.deliver Response.defaults)

/-- Operation code 0xE: `raise ILLEGAL_OP`, R22 and R49. -/
def execIllegalE (s : State) : Host.Outcome State Fault Refusal := .next (s.raise .illegalOp)

/-- Operation code 0xF: `raise ILLEGAL_OP`, R22 and R49. -/
def execIllegalF (s : State) : Host.Outcome State Fault Refusal := .next (s.raise .illegalOp)

end Sys2Proof.Machine
end

