-- ==== Sys2Proof/Machine/Flags.lean ====
section
/-! DEFINITION. The flags of a response, `RSP.fl` (10_state.md R20). The block has no flag register (R18). -/

namespace Sys2Proof.Machine

/-- `RSP.fl` from its bits: bit 0 `F0_OK`, bit 1 `F1_OK`, bit 2 `F2_OK`, bit 3 `SCALE_ZERO`, bit 4 `CLAMPED`,
bits 7:5 always 0 (R20). -/
def flagByte (f0Ok f1Ok f2Ok scaleZero clamped : Bool) : BitVec 8 :=
  0#3 ++ BitVec.ofBool clamped ++ BitVec.ofBool scaleZero ++ BitVec.ofBool f2Ok ++ BitVec.ofBool f1Ok
    ++ BitVec.ofBool f0Ok

/-- The flags an O2 encoder writes: `CLAMPED` alone (R63, R64). -/
def clampFlags (clamped : Bool) : BitVec 8 := flagByte false false false false clamped

/-- The flags `VAL_SET` writes (R69). -/
def settingsFlags (f0Ok f1Ok f2Ok scaleZero : Bool) : BitVec 8 := flagByte f0Ok f1Ok f2Ok scaleZero false

end Sys2Proof.Machine
end

