-- ==== Sys2Proof/Machine/Encoder.lean ====
section
/-! DEFINITION. The command encoder operations (41_encoder.md R60 to R65). None writes a register. -/

namespace Sys2Proof.Machine

/-- The response that carries a 2-byte frame (R43, R61). -/
def cmd2Response (cmd : Word) : Response := Response.defaults.withFrame (cmd2Frame cmd)

/-- The response that carries a 5-byte frame whose argument is sent as given (R44, R62). -/
def cmd5Response (cmd arg : Word) : Response := Response.defaults.withFrame (cmd5Frame cmd arg)

/-- The response that carries a 5-byte frame whose argument is `sval(b)` clamped to `[lo, 100]`; `CLAMPED` says
whether the clamp changed the value (R60, R63, R64). -/
def o2Response (lo : Int) (cmd b : Word) : Response :=
  { (cmd5Response cmd (argWord (clamp (sval b) lo o2Max))) with
    fl := clampFlags (decide (clamp (sval b) lo o2Max ≠ sval b)) }

/-- `ENC2`, R61. -/
def execEnc2 (a : Word) (s : State) : Host.Outcome State Fault Refusal := .next (s.deliver (cmd2Response a))

/-- `ENC5`, R62. -/
def execEnc5 (a b : Word) (s : State) : Host.Outcome State Fault Refusal := .next (s.deliver (cmd5Response a b))

/-- `ENC5_O2_LO0`, R63. -/
def execEnc5O2Lo0 (a b : Word) (s : State) : Host.Outcome State Fault Refusal :=
  .next (s.deliver (o2Response o2MinA a b))

/-- `ENC5_O2_LO21`, R64. -/
def execEnc5O2Lo21 (a b : Word) (s : State) : Host.Outcome State Fault Refusal :=
  .next (s.deliver (o2Response o2MinB a b))

end Sys2Proof.Machine
end

