-- ==== Sys2Proof/Config.lean ====
section
/-! DEFINITION. The parameters the spec leaves OPEN (00_scope.md R5; 92_eei_decisions.md D12, D13), as constants
with no body: nothing can be proved about their values, so a theorem holds whichever way they are set.
`HANDSHAKE`, the third open parameter, has no part in a transaction-level model (log entry 9).
The parameters the spec fixes (R4) stand in Machine/Parameters.lean. -/

namespace Sys2Proof

/-- Which lower bound an oxygen-fraction command is sent with: 0 (`ENC5_O2_LO0`, R63) or 21 (`ENC5_O2_LO21`, R64). -/
inductive O2Bound where
  | lo0
  | lo21
  deriving DecidableEq, Repr, Inhabited

/-- The two shapes of a command frame: 2 bytes (R43) or 5 bytes (R44). -/
inductive FrameShape where
  | cmd2
  | cmd5
  deriving DecidableEq, Repr, Inhabited

/-- How the argument of a 5-byte frame is treated: sent as given (`ENC5`, R62), or clamped as an oxygen fraction
(R63, R64). -/
inductive ArgKind where
  | plain
  | o2Fraction
  deriving DecidableEq, Repr, Inhabited

/-- `O2_BOUND_OF(cmd)` of R5: the lower bound a command word is sent with. A free value (log entry 6). -/
opaque Config.o2BoundOf : Word → O2Bound

/-- `MIX_FRAME_SHAPE` of R5: the shape of the frame that carries command word 0x3632. A free value (log entry 7). -/
opaque Config.mixFrameShape : FrameShape

/-- What the argument of command word 0x3632 is, should its frame have 5 bytes: R47 says "not stated".
A free value (log entry 7). -/
opaque Config.mixArgKind : ArgKind

end Sys2Proof
end

