-- ==== Sys2Proof/Machine/SensorCommands.lean ====
section
/-! DEFINITION. The sensor command words as the requester's pseudo-instructions (30_encoding.md R47, R52): each builds the
command frame the spec names for it, as the operation it expands to would. That a row of the table with format
`SENSOR_CMD16` runs as its pseudo-instruction is DEDUCED (log entry 5). -/

namespace Sys2Proof.Machine

/-- The argument of the settings read (R47, R52). -/
def settingsReadArg : Word := 0x3608

/-- The lower clamp bound of an O2 command, by `O2_BOUND_OF` (R5). -/
def o2Lower (cmd : Word) : Int :=
  match Config.o2BoundOf cmd with
  | .lo0 => o2MinA
  | .lo21 => o2MinB

/-- The frame of command word 0x3632, by `MIX_FRAME_SHAPE` (R5) and, for a 5-byte frame, by what its argument is
(R47: "not stated"). -/
def mixtureResponse (cmd arg : Word) : Response :=
  match Config.mixFrameShape with
  | .cmd2 => cmd2Response cmd
  | .cmd5 =>
    match Config.mixArgKind with
    | .plain => cmd5Response cmd arg
    | .o2Fraction => o2Response (o2Lower cmd) cmd arg

/-- `CMD_RESET = ENC2 0x0006`, R52. -/
def execCmdReset (s : State) : Host.Outcome State Fault Refusal :=
  .next (s.deliver (cmd2Response (commandWord .reset)))

/-- `CMD_STOP = ENC2 0x3FF9`, R52. -/
def execCmdStop (s : State) : Host.Outcome State Fault Refusal :=
  .next (s.deliver (cmd2Response (commandWord .stopContinuousRead)))

/-- `CMD_READ_SETTINGS = ENC5 0x3661, 0x3608`, R52. -/
def execCmdReadSettings (s : State) : Host.Outcome State Fault Refusal :=
  .next (s.deliver (cmd5Response (commandWord .readScaleAndOffset) settingsReadArg))

/-- `CMD_START_AIR = ENC2 0x3608`, R52. -/
def execCmdStartAir (s : State) : Host.Outcome State Fault Refusal :=
  .next (s.deliver (cmd2Response (commandWord .continuousReadAir)))

/-- `CMD_START_O2 = ENC2 0x3603`, R52. -/
def execCmdStartO2 (s : State) : Host.Outcome State Fault Refusal :=
  .next (s.deliver (cmd2Response (commandWord .continuousReadO2)))

/-- Command word 0x3632: the frame of `MIX_FRAME_SHAPE` (R5, R47). -/
def execCmdReadMixture (arg : Word) (s : State) : Host.Outcome State Fault Refusal :=
  .next (s.deliver (mixtureResponse (commandWord .continuousReadMixture) arg))

/-- `CMD_SET_O2_LO0 f` or `CMD_SET_O2_LO21 f` (R52), by `O2_BOUND_OF` (R5). -/
def execCmdChangeO2 (f : Word) (s : State) : Host.Outcome State Fault Refusal :=
  .next (s.deliver (o2Response (o2Lower (commandWord .changeO2Fraction)) (commandWord .changeO2Fraction) f))

end Sys2Proof.Machine
end

