-- ==== Sys2Proof/Machine/Validator.lean ====
section
/-! DEFINITION. The frame validator operations (42_validator.md R66 to R70). -/

namespace Sys2Proof.Machine

/-- `meas_check(b0, b1, b2)`, R66: the sentinel is tested before the CRC. -/
def measCheck (b0 b1 b2 : Byte) : Status :=
  if b2 = noDataCrc then .noData
  else if crc8 [b0, b1] ≠ b2 then .crcErr
  else .ok

/-- `VAL_MEAS`, R67: a reply that is not good raises its status before any write. -/
def execValMeas (rx0 rx1 rx2 : Byte) (s : State) : Host.Outcome State Fault Refusal :=
  match measCheck rx0 rx1 rx2 with
  | .ok => .next ((s.holdSample (wireWord rx0 rx1)).deliver (resultWord (wireWord rx0 rx1)))
  | st => .next (s.raise st)

/-- `VAL_DISC`, R68: validated and reported, never stored. -/
def execValDisc (rx0 rx1 rx2 : Byte) (s : State) : Host.Outcome State Fault Refusal :=
  match measCheck rx0 rx1 rx2 with
  | .ok => .next (s.deliver (resultWord (wireWord rx0 rx1)))
  | st => .next (s.raise st)

/-- A field of the settings reply agrees with its CRC byte (R46, R69). -/
def fieldOk (first second crc : Byte) : Bool := decide (crc8 [first, second] = crc)

/-- The response of `VAL_SET`, R69: the three fields are returned whether or not the CRCs match. -/
def settingsResponse (rx0 rx1 rx2 rx3 rx4 rx5 rx6 rx7 rx8 : Byte) : Response :=
  { Response.defaults with
    st := if fieldOk rx0 rx1 rx2 && fieldOk rx3 rx4 rx5 && fieldOk rx6 rx7 rx8 then Status.ok.code
      else Status.crcErr.code
    r0 := wireWord rx0 rx1
    r1 := wireWord rx3 rx4
    r2 := wireWord rx6 rx7
    fl := settingsFlags (fieldOk rx0 rx1 rx2) (fieldOk rx3 rx4 rx5) (fieldOk rx6 rx7 rx8)
      (decide (wireWord rx0 rx1 = 0)) }

/-- `VAL_SET`, R69: no register is written and nothing is raised. -/
def execValSet (rx0 rx1 rx2 rx3 rx4 rx5 rx6 rx7 rx8 : Byte) (s : State) : Host.Outcome State Fault Refusal :=
  .next (s.deliver (settingsResponse rx0 rx1 rx2 rx3 rx4 rx5 rx6 rx7 rx8))

end Sys2Proof.Machine
end

