-- ==== Sys2Proof/Machine/Dispatch.lean ====
section
/-! DEFINITION. One arm per instruction: the meaning of each (30_encoding.md R37, R49, R52). -/

namespace Sys2Proof.Machine

def exec (i : Instr) (s : State) : Host.Outcome State Fault Refusal :=
  match i with
  | .nop => Sys2Proof.Machine.execNop s
  | .srst => Sys2Proof.Machine.execSrst s
  | .swap16 a => Sys2Proof.Machine.execSwap16 a s
  | .crcInit => Sys2Proof.Machine.execCrcInit s
  | .crcUpd a => Sys2Proof.Machine.execCrcUpd a s
  | .crcRead => Sys2Proof.Machine.execCrcRead s
  | .crc2 a => Sys2Proof.Machine.execCrc2 a s
  | .enc2 a => Sys2Proof.Machine.execEnc2 a s
  | .enc5 a b => Sys2Proof.Machine.execEnc5 a b s
  | .enc5O2Lo0 a b => Sys2Proof.Machine.execEnc5O2Lo0 a b s
  | .enc5O2Lo21 a b => Sys2Proof.Machine.execEnc5O2Lo21 a b s
  | .valMeas rx0 rx1 rx2 => Sys2Proof.Machine.execValMeas rx0 rx1 rx2 s
  | .valSet rx0 rx1 rx2 rx3 rx4 rx5 rx6 rx7 rx8 => Sys2Proof.Machine.execValSet rx0 rx1 rx2 rx3 rx4 rx5 rx6 rx7 rx8 s
  | .valDisc rx0 rx1 rx2 => Sys2Proof.Machine.execValDisc rx0 rx1 rx2 s
  | .illegalE => Sys2Proof.Machine.execIllegalE s
  | .illegalF => Sys2Proof.Machine.execIllegalF s
  | .cmdReset => Sys2Proof.Machine.execCmdReset s
  | .cmdStop => Sys2Proof.Machine.execCmdStop s
  | .cmdReadSettings => Sys2Proof.Machine.execCmdReadSettings s
  | .cmdStartAir => Sys2Proof.Machine.execCmdStartAir s
  | .cmdStartO2 => Sys2Proof.Machine.execCmdStartO2 s
  | .cmdReadMixture arg => Sys2Proof.Machine.execCmdReadMixture arg s
  | .cmdChangeO2 f => Sys2Proof.Machine.execCmdChangeO2 f s

end Sys2Proof.Machine
end

