-- ==== Sys2Proof/Machine/Requests.lean ====
section
/-! DEFINITION. What a step does around an instruction: taking the next input, and the steps that run no instruction
(10_state.md R13, R22; 70_reset_and_hazards.md R85, R86). -/

namespace Sys2Proof.Machine

/-- The next input and the state it is served in: inputs take effect "one at a time in the order the requester presents
them" (20_memory.md R34). -/
def State.takeInput (s : State) : Option (Input × State) :=
  match s.inputs with
  | [] => none
  | x :: rest => some (x, { s with inputs := rest })

/-- Nothing is presented: "the block does nothing between requests" (R22) and holds no response between them
(R87; log entry 3). -/
def idleStep (s : State) : Host.Outcome State Fault Refusal := .next { s with rsp := none }

/-- The reset event, R85: the registers take their reset values; it "produces no response". -/
def resetStep (s : State) : Host.Outcome State Fault Refusal := .next { s.resetRegs with rsp := none }

/-- A legal operation code with a reserved field that is not zero: `raise RESERVED_BITS` (R22, R38). -/
def reservedStep (s : State) : Host.Outcome State Fault Refusal := .next (s.raise .reservedBits)

/-- A bare command word R47 does not list: the model refuses it by name (log entry 8). -/
def unlistedStep (cmd : Word) : Host.Outcome State Fault Refusal := .refused (.unlistedCommand cmd)

end Sys2Proof.Machine
end

