-- ==== Sys2Proof/Machine/Step.lean ====
section
/-! DEFINITION. The step (10_state.md R22): one request, one indivisible step. -/

namespace Sys2Proof.Machine

/-- One step: the next input is taken and served. A request word is decoded in the order of R22: illegal code, reserved
fields, operation. -/
def step (s : State) : Host.Outcome State Fault Refusal :=
  match s.takeInput with
  | none => idleStep s
  | some (.reset, s') => resetStep s'
  | some (.present r, s') =>
    match decode r with
    | .instr i => exec i s'
    | .reservedBits => reservedStep s'
    | .unlistedCommand cmd => unlistedStep cmd

/-- `s` with the instruction whose bits are `w` presented before everything the requester still presents, so that the
very next step serves it (log entry 2). -/
def State.withFetchWord (s : State) (nbits w : Nat) : State :=
  { s with inputs := .present (tableRequest nbits w) :: s.inputs }

end Sys2Proof.Machine
end

