-- ==== Sys2Proof/Machine/Assembler.lean ====
section
/-! DEFINITION. The assembler of 30_encoding.md R51 and the pseudo-instructions of R52, over operand values: a line is a
mnemonic with the numbers written after it. (The text form of a number is not modelled: log entry 12.) -/

namespace Sys2Proof.Machine

/-- A line of R51 or R52, its operands as the numbers written. -/
inductive AsmLine where
  | nop
  | srst
  | swap16 (a : Int)
  | crcInit
  | crcUpd (a : Int)
  | crcRead
  | crc2 (a : Int)
  | enc2 (a : Int)
  | enc5 (a b : Int)
  | enc5O2Lo0 (a b : Int)
  | enc5O2Lo21 (a b : Int)
  | valMeas (rx0 rx1 rx2 : Int)
  | valDisc (rx0 rx1 rx2 : Int)
  | valSet (rx0 rx1 rx2 rx3 rx4 rx5 rx6 rx7 rx8 : Int)
  /-- `CMD_RESET`, R52. -/
  | cmdReset
  /-- `CMD_STOP`, R52. -/
  | cmdStop
  /-- `CMD_READ_SETTINGS`, R52. -/
  | cmdReadSettings
  /-- `CMD_START_AIR`, R52. -/
  | cmdStartAir
  /-- `CMD_START_O2`, R52. -/
  | cmdStartO2
  /-- `CMD_SET_O2_LO0 f`, R52. -/
  | cmdSetO2Lo0 (f : Int)
  /-- `CMD_SET_O2_LO21 f`, R52. -/
  | cmdSetO2Lo21 (f : Int)
  deriving DecidableEq, Repr

/-- An operand in 0..0xFFFF (R51). -/
def wordFits (v : Int) : Bool := decide (0 ≤ v) && decide (v ≤ 0xFFFF)

/-- A signed `B` in -32768..32767 (R51; log entry 12). -/
def signedFits (v : Int) : Bool := decide (-32768 ≤ v) && decide (v ≤ 32767)

/-- An `RX` byte, or the byte operand of `CRC_UPD`, in 0..0xFF (R51). -/
def byteFits (v : Int) : Bool := decide (0 ≤ v) && decide (v ≤ 0xFF)

/-- "An operand that does not fit its field ... is an assembly error, not a truncation" (R51). -/
def AsmLine.fits : AsmLine → Bool
  | .nop => true
  | .srst => true
  | .swap16 a => wordFits a
  | .crcInit => true
  | .crcUpd a => byteFits a
  | .crcRead => true
  | .crc2 a => wordFits a
  | .enc2 a => wordFits a
  | .enc5 a b => wordFits a && wordFits b
  | .enc5O2Lo0 a b => wordFits a && signedFits b
  | .enc5O2Lo21 a b => wordFits a && signedFits b
  | .valMeas rx0 rx1 rx2 => byteFits rx0 && byteFits rx1 && byteFits rx2
  | .valDisc rx0 rx1 rx2 => byteFits rx0 && byteFits rx1 && byteFits rx2
  | .valSet rx0 rx1 rx2 rx3 rx4 rx5 rx6 rx7 rx8 =>
    byteFits rx0 && byteFits rx1 && byteFits rx2 && byteFits rx3 && byteFits rx4 && byteFits rx5 && byteFits rx6
      && byteFits rx7 && byteFits rx8
  | .cmdReset => true
  | .cmdStop => true
  | .cmdReadSettings => true
  | .cmdStartAir => true
  | .cmdStartO2 => true
  | .cmdSetO2Lo0 f => signedFits f
  | .cmdSetO2Lo21 f => signedFits f

/-- The 16-bit field that holds a number (two's complement for a negative one). -/
def asmWord (v : Int) : Word := BitVec.ofInt 16 v

/-- The byte field that holds a number. -/
def asmByte (v : Int) : Byte := BitVec.ofInt 8 v

/-- The operation a line assembles to; a pseudo-instruction gives its expansion (R52). -/
def AsmLine.instr : AsmLine → Instr
  | .nop => .nop
  | .srst => .srst
  | .swap16 a => .swap16 (asmWord a)
  | .crcInit => .crcInit
  | .crcUpd a => .crcUpd (asmWord a)
  | .crcRead => .crcRead
  | .crc2 a => .crc2 (asmWord a)
  | .enc2 a => .enc2 (asmWord a)
  | .enc5 a b => .enc5 (asmWord a) (asmWord b)
  | .enc5O2Lo0 a b => .enc5O2Lo0 (asmWord a) (asmWord b)
  | .enc5O2Lo21 a b => .enc5O2Lo21 (asmWord a) (asmWord b)
  | .valMeas rx0 rx1 rx2 => .valMeas (asmByte rx0) (asmByte rx1) (asmByte rx2)
  | .valDisc rx0 rx1 rx2 => .valDisc (asmByte rx0) (asmByte rx1) (asmByte rx2)
  | .valSet rx0 rx1 rx2 rx3 rx4 rx5 rx6 rx7 rx8 =>
    .valSet (asmByte rx0) (asmByte rx1) (asmByte rx2) (asmByte rx3) (asmByte rx4) (asmByte rx5) (asmByte rx6)
      (asmByte rx7) (asmByte rx8)
  | .cmdReset => .enc2 (commandWord .reset)
  | .cmdStop => .enc2 (commandWord .stopContinuousRead)
  | .cmdReadSettings => .enc5 (commandWord .readScaleAndOffset) 0x3608
  | .cmdStartAir => .enc2 (commandWord .continuousReadAir)
  | .cmdStartO2 => .enc2 (commandWord .continuousReadO2)
  | .cmdSetO2Lo0 f => .enc5O2Lo0 (commandWord .changeO2Fraction) (asmWord f)
  | .cmdSetO2Lo21 f => .enc5O2Lo21 (commandWord .changeO2Fraction) (asmWord f)

/-- The request a line assembles to, `none` for an assembly error. -/
def assemble (l : AsmLine) : Option Request := if l.fits then some (encode l.instr) else none

end Sys2Proof.Machine
end

