-- ==== Sys2Proof/WellFormed.lean ====
section
/-! DEFINITION. Which instructions the assembler of 30_encoding.md R51 can produce. The operand types already bound every
field; the one check left is that of `CRC_UPD`, whose operand is a byte value that assembles with `A[15:8] = 0`. The
block itself executes the others as well and ignores `A[15:8]` (R39, R57; log entry 11). -/

namespace Sys2Proof

/-- R51: "`CRC_UPD` with A above 0xFF is an assembly error". -/
def crcUpdOperandFits (a : Word) : Bool := decide (a.toNat ≤ 0xFF)

/-- The instructions R51 and R52 can write. -/
def Instr.wellFormed : Instr → Bool
  | .nop => true
  | .srst => true
  | .swap16 _ => true
  | .crcInit => true
  | .crcUpd a => crcUpdOperandFits a
  | .crcRead => true
  | .crc2 _ => true
  | .enc2 _ => true
  | .enc5 _ _ => true
  | .enc5O2Lo0 _ _ => true
  | .enc5O2Lo21 _ _ => true
  | .valMeas _ _ _ => true
  | .valSet _ _ _ _ _ _ _ _ _ => true
  | .valDisc _ _ _ => true
  | .illegalE => true
  | .illegalF => true
  | .cmdReset => true
  | .cmdStop => true
  | .cmdReadSettings => true
  | .cmdStartAir => true
  | .cmdStartO2 => true
  | .cmdReadMixture _ => true
  | .cmdChangeO2 _ => true

end Sys2Proof
end

