-- ==== Sys2Proof/Safety.lean ====
section
/-! DEFINITION. The terms claims are stated in: what a well-formed response and a consistent state are, and the duties
the requester owes the block, which are "premises of a claim, not faults" (70_reset_and_hazards.md R88, R90). -/

namespace Sys2Proof

/-- The static part of 10_state.md R20 and 60_exceptions.md R78: a status in 0..4, flag bits 7:5 zero, a length of 0, 2 or
5, and zero bytes at and past that length. -/
def ResponseShape (r : Machine.Response) : Prop :=
  r.st.toNat ≤ 4 ∧
  r.fl.extractLsb' 5 3 = 0 ∧
  (r.txlen = 0 ∨ r.txlen = 2 ∨ r.txlen = 5) ∧
  ∀ k : Fin 5, r.txlen.toNat ≤ k.val → r.tx[k] = 0

/-- A state is consistent when "`SMP` holds its reset value" unless `HV = 1` (R16), `SMP` is a sign-extended 16-bit sample
(R15), and a delivered response has the shape of R20 and shows `SMP` and `HV` as they stand (R20, R21). -/
def Consistent (s : Machine.State) : Prop :=
  (s.hv = 0 → s.smp = 0) ∧
  s.smp = (s.smp.extractLsb' 0 16).signExtend 32 ∧
  ∀ r, s.rsp = some r → ResponseShape r ∧ r.smp = s.smp ∧ r.hv = s.hv

/-- A request word whose operation code is `op` and whose reserved fields are zero (R36, R38). -/
def LegalWord (op : BitVec 4) (w : ReqWord) : Prop :=
  w.extractLsb' 0 4 = op ∧ w.extractLsb' 4 12 = 0 ∧ w.extractLsb' 120 8 = 0

/-- The next thing the block serves is the request `r`; `rest` follows it. -/
def Presents (s : Machine.State) (r : Request) (rest : List Machine.Input) : Prop :=
  s.inputs = .present r :: rest

/-- R88: what may stand between the `CRC_INIT` of a stream and its last byte, the stream's own `CRC_UPD` included:
anything but another `CRC_INIT` and `SRST`. -/
def streamSafe : Instr → Bool
  | .crcInit => false
  | .srst => false
  | _ => true

/-- The byte an instruction feeds into the CRC stream, if it feeds one (R57). -/
def streamByte : Instr → Option Byte
  | .crcUpd a => some (a.extractLsb' 0 8)
  | _ => none

/-- R88 for a request as it is presented: it is judged by what it decodes to, and one that is refused runs no operation
(R38, R79), so it may stand in a stream. -/
def requestStreamSafe (q : Request) : Bool :=
  match decode q with
  | .instr i => streamSafe i
  | .reservedBits => true
  | .unlistedCommand _ => true

/-- The byte a request feeds into the CRC stream: none if it is refused (R38, R79). -/
def requestByte (q : Request) : Option Byte :=
  match decode q with
  | .instr i => streamByte i
  | .reservedBits => none
  | .unlistedCommand _ => none

/-- A request the block can be presented: every request word, and the bare command words that R47 lists (log entry 8). -/
def Presentable (q : Request) : Prop := ∀ cmd, decode q ≠ .unlistedCommand cmd

/-! ### The requester's duties of R90

The block checks none of them; a claim takes them as premises. Items 1, 2 and 4 speak of where the bytes of the window come
from, which the block never sees: a `Presentation` says it beside the request (log entry 13). -/

/-- The two replies of the sensor: `MEAS` (R45) and `SETTINGS` (R46). -/
inductive ReplyKind where
  | measurement
  | settings
  deriving DecidableEq, Repr

/-- What the transport reports of a read: the whole reply, or that the read was short, "reported as `PacketError`, not a
partial success" (R90, item 1). -/
inductive ReadReport where
  | inFull (bytes : List Byte)
  | packetError
  deriving DecidableEq, Repr

/-- A reply as the requester knows it: which reply it asked for (R50), what the transport reported, and whether it is the
frame the source says to discard (`DISCARD_PACKET`, R68). -/
structure Reply where
  kind : ReplyKind
  report : ReadReport
  toDiscard : Bool
  deriving DecidableEq, Repr

/-- A request as the requester presents it, with the reply its window was filled from, if it was filled from one. -/
structure Presentation where
  request : Request
  reply : Option Reply
  deriving DecidableEq, Repr

/-- The window bytes an operation uses (R41), if it uses any. -/
def windowBytes : Instr → Option (List Byte)
  | .valMeas rx0 rx1 rx2 => some [rx0, rx1, rx2]
  | .valDisc rx0 rx1 rx2 => some [rx0, rx1, rx2]
  | .valSet rx0 rx1 rx2 rx3 rx4 rx5 rx6 rx7 rx8 => some [rx0, rx1, rx2, rx3, rx4, rx5, rx6, rx7, rx8]
  | _ => none

/-- The reply an operation takes its window to be (R41). -/
def windowKind : Instr → Option ReplyKind
  | .valMeas _ _ _ => some .measurement
  | .valDisc _ _ _ => some .measurement
  | .valSet _ _ _ _ _ _ _ _ _ => some .settings
  | _ => none

/-- R90, item 1: the window bytes an operation uses are the bytes of a reply the transport reported as read in full. The
bytes it ignores are under no duty. -/
def keepsReadInFull (reply : Option Reply) (i : Instr) : Bool :=
  match windowBytes i with
  | some bytes => reply.map Reply.report == some (.inFull bytes)
  | none => true

/-- R90, item 2: a measurement reply goes to `VAL_MEAS` or `VAL_DISC`, a settings reply to `VAL_SET`. -/
def keepsReplyKind (reply : Option Reply) (i : Instr) : Bool :=
  match windowKind i with
  | some kind => reply.map Reply.kind == some kind
  | none => true

/-- R90, item 4: the frame the source says to discard does not go to `VAL_MEAS`. -/
def keepsDiscard (reply : Option Reply) : Instr → Bool
  | .valMeas _ _ _ => reply.map Reply.toDiscard != some true
  | _ => true

/-- Items 1, 2 and 4 of R90 for a request as it is presented: it is judged by what it decodes to, and one that is refused
looks at no window (R38, R79). -/
def Presentation.keepsReplyDuties (p : Presentation) : Bool :=
  match decode p.request with
  | .instr i => keepsReadInFull p.reply i && keepsReplyKind p.reply i && keepsDiscard p.reply i
  | .reservedBits => true
  | .unlistedCommand _ => true

/-- The frame shape R47 gives a command word, the parameter `MIX_FRAME_SHAPE` (R5) for 0x3632; `none` where R47 lists no
such word. -/
def tableShape (cmd : Word) : Option FrameShape :=
  match commandOf cmd with
  | some .reset => some .cmd2
  | some .stopContinuousRead => some .cmd2
  | some .readScaleAndOffset => some .cmd5
  | some .continuousReadAir => some .cmd2
  | some .continuousReadO2 => some .cmd2
  | some .continuousReadMixture => some Config.mixFrameShape
  | some .changeO2Fraction => some .cmd5
  | none => none

/-- R90, item 3, first half: a command word that R47 binds to a frame shape is sent in that shape. -/
def keepsTableShape : Instr → Bool
  | .enc2 a => tableShape a != some .cmd5
  | .enc5 a _ => tableShape a != some .cmd2
  | .enc5O2Lo0 a _ => tableShape a != some .cmd2
  | .enc5O2Lo21 a _ => tableShape a != some .cmd2
  | _ => true

/-- The command words whose argument is an oxygen fraction: 0xE17D, "O2 fraction, clamped" (R47), and 0x3632 if its open
argument is one (log entry 7). -/
def isO2Command (cmd : Word) : Bool :=
  match commandOf cmd with
  | some .changeO2Fraction => true
  | some .continuousReadMixture => Config.mixFrameShape == .cmd5 && Config.mixArgKind == .o2Fraction
  | _ => false

/-- R90, item 3, second half: an O2 command is sent with "the bound of its choice", the parameter `O2_BOUND_OF` (R5, R65),
so through the operation of that bound, and never unclamped. -/
def keepsO2Bound : Instr → Bool
  | .enc5 a _ => !isO2Command a
  | .enc5O2Lo0 a _ => Config.o2BoundOf a == .lo0
  | .enc5O2Lo21 a _ => Config.o2BoundOf a == .lo21
  | _ => true

/-- Item 3 of R90 whole, for a request as it is presented. -/
def Presentation.keepsCommandDuty (p : Presentation) : Bool :=
  match decode p.request with
  | .instr i => keepsTableShape i && keepsO2Bound i
  | .reservedBits => true
  | .unlistedCommand _ => true

end Sys2Proof
end

