-- ==== Sys2Proof/Certificates/Slice0/Obligations.lean ====
section
/-! DEFINITION. The statements for the provers (OBLIGATIONS.json lists them), each from the rules of spec/. Byte and field
values are written here as slices of the operands, not through the model's own operand functions. -/

namespace Sys2Proof.Stated

open Sys2Proof.Machine

/-- The default response of R21, delivered in a state whose held sample is that of `s`. -/
def blank (s : State) : Response :=
  { st := 0, r0 := 0, r1 := 0, r2 := 0, fl := 0, txlen := 0, tx := #v[0, 0, 0, 0, 0], smp := s.smp, hv := s.hv }

/-- The request answers `r` and every register keeps its value. -/
def answers (s : State) (r : Response) : Host.Outcome State Fault Refusal := .next { s with rsp := some r }

/-- The table of 95_test_vectors.md section 2.1, in the order of its rows. -/
def crcTable : List (BitVec 8) :=
  [0x00, 0x31, 0x62, 0x53, 0xC4, 0xF5, 0xA6, 0x97, 0xB9, 0x88, 0xDB, 0xEA, 0x7D, 0x4C, 0x1F, 0x2E] ++
  [0x43, 0x72, 0x21, 0x10, 0x87, 0xB6, 0xE5, 0xD4, 0xFA, 0xCB, 0x98, 0xA9, 0x3E, 0x0F, 0x5C, 0x6D] ++
  [0x86, 0xB7, 0xE4, 0xD5, 0x42, 0x73, 0x20, 0x11, 0x3F, 0x0E, 0x5D, 0x6C, 0xFB, 0xCA, 0x99, 0xA8] ++
  [0xC5, 0xF4, 0xA7, 0x96, 0x01, 0x30, 0x63, 0x52, 0x7C, 0x4D, 0x1E, 0x2F, 0xB8, 0x89, 0xDA, 0xEB] ++
  [0x3D, 0x0C, 0x5F, 0x6E, 0xF9, 0xC8, 0x9B, 0xAA, 0x84, 0xB5, 0xE6, 0xD7, 0x40, 0x71, 0x22, 0x13] ++
  [0x7E, 0x4F, 0x1C, 0x2D, 0xBA, 0x8B, 0xD8, 0xE9, 0xC7, 0xF6, 0xA5, 0x94, 0x03, 0x32, 0x61, 0x50] ++
  [0xBB, 0x8A, 0xD9, 0xE8, 0x7F, 0x4E, 0x1D, 0x2C, 0x02, 0x33, 0x60, 0x51, 0xC6, 0xF7, 0xA4, 0x95] ++
  [0xF8, 0xC9, 0x9A, 0xAB, 0x3C, 0x0D, 0x5E, 0x6F, 0x41, 0x70, 0x23, 0x12, 0x85, 0xB4, 0xE7, 0xD6] ++
  [0x7A, 0x4B, 0x18, 0x29, 0xBE, 0x8F, 0xDC, 0xED, 0xC3, 0xF2, 0xA1, 0x90, 0x07, 0x36, 0x65, 0x54] ++
  [0x39, 0x08, 0x5B, 0x6A, 0xFD, 0xCC, 0x9F, 0xAE, 0x80, 0xB1, 0xE2, 0xD3, 0x44, 0x75, 0x26, 0x17] ++
  [0xFC, 0xCD, 0x9E, 0xAF, 0x38, 0x09, 0x5A, 0x6B, 0x45, 0x74, 0x27, 0x16, 0x81, 0xB0, 0xE3, 0xD2] ++
  [0xBF, 0x8E, 0xDD, 0xEC, 0x7B, 0x4A, 0x19, 0x28, 0x06, 0x37, 0x64, 0x55, 0xC2, 0xF3, 0xA0, 0x91] ++
  [0x47, 0x76, 0x25, 0x14, 0x83, 0xB2, 0xE1, 0xD0, 0xFE, 0xCF, 0x9C, 0xAD, 0x3A, 0x0B, 0x58, 0x69] ++
  [0x04, 0x35, 0x66, 0x57, 0xC0, 0xF1, 0xA2, 0x93, 0xBD, 0x8C, 0xDF, 0xEE, 0x79, 0x48, 0x1B, 0x2A] ++
  [0xC1, 0xF0, 0xA3, 0x92, 0x05, 0x34, 0x67, 0x56, 0x78, 0x49, 0x1A, 0x2B, 0xBC, 0x8D, 0xDE, 0xEF] ++
  [0x82, 0xB3, 0xE0, 0xD1, 0x46, 0x77, 0x24, 0x15, 0x3B, 0x0A, 0x59, 0x68, 0xFF, 0xCE, 0x9D, 0xAC]

/-- The argument an O2 encoder sends for the request `b` with lower bound `lo`: `b` read as signed, moved to the nearer
bound when it lies outside `lo..100` (R60, R63, R64). -/
def o2Arg (lo : BitVec 16) (b : BitVec 16) : BitVec 16 :=
  if b.toInt < lo.toInt then lo else if 100 < b.toInt then 100 else b

/-- The response of an O2 encoder with lower bound `lo` (R63, R64). -/
def o2Answer (s : State) (lo a b : BitVec 16) : Response :=
  { blank s with
    fl := if b.toInt < lo.toInt ∨ 100 < b.toInt then 0x10 else 0x00
    txlen := 5
    tx := #v[a.extractLsb' 8 8, a.extractLsb' 0 8, (o2Arg lo b).extractLsb' 8 8, (o2Arg lo b).extractLsb' 0 8,
      crc8 [(o2Arg lo b).extractLsb' 8 8, (o2Arg lo b).extractLsb' 0 8]] }

/-- The lower bound of a command word, by the open parameter `O2_BOUND_OF` (R5). -/
def openBound (cmd : BitVec 16) : BitVec 16 :=
  match Config.o2BoundOf cmd with
  | .lo0 => 0
  | .lo21 => 21

/-- The status a raw request word gets, by the priority of R80 and the causes of R78. -/
def statusOf (w : BitVec 128) : BitVec 4 :=
  if w.extractLsb' 0 4 = 0xE ∨ w.extractLsb' 0 4 = 0xF then 3
  else if w.extractLsb' 4 12 ≠ 0 ∨ w.extractLsb' 120 8 ≠ 0 then 4
  else if w.extractLsb' 0 4 = 0xB ∨ w.extractLsb' 0 4 = 0xD then
    if w.extractLsb' 64 8 = 0 then 2
    else if crc8 [w.extractLsb' 48 8, w.extractLsb' 56 8] ≠ w.extractLsb' 64 8 then 1 else 0
  else if w.extractLsb' 0 4 = 0xC then
    if crc8 [w.extractLsb' 48 8, w.extractLsb' 56 8] = w.extractLsb' 64 8 ∧
      crc8 [w.extractLsb' 72 8, w.extractLsb' 80 8] = w.extractLsb' 88 8 ∧
      crc8 [w.extractLsb' 96 8, w.extractLsb' 104 8] = w.extractLsb' 112 8 then 0 else 1
  else 0

/-- A line of the assembler builds the frame `tx[0..n-1]` as one request, in every state. -/
def BuildsFrame (l : AsmLine) (n : BitVec 3) (tx : Vector (BitVec 8) 5) : Prop :=
  ∃ q i, assemble l = some q ∧ decode q = .instr i ∧
    ∀ s, exec i s = answers s { blank s with txlen := n, tx := tx }

/-- What `VAL_MEAS` and `SRST` make of the held sample and `HV` (R15, R16, R67, R72). -/
def sampleAfter (x : BitVec 32 × BitVec 1) : Instr → BitVec 32 × BitVec 1
  | .valMeas a b c => if c ≠ 0 ∧ crc8 [a, b] = c then ((a ++ b : BitVec 16).signExtend 32, 1) else x
  | .srst => (0, 0)
  | _ => x

/-- The same for a request as it is presented, through what it decodes to: a refused request changes nothing (R79). -/
def sampleAfterRequest (x : BitVec 32 × BitVec 1) (q : Request) : BitVec 32 × BitVec 1 :=
  match decode q with
  | .instr i => sampleAfter x i
  | .reservedBits => x
  | .unlistedCommand _ => x

/-- The sample in the bytes of a measurement reply, if its CRC byte is right and not the sentinel (R45, R66). -/
def goodSample : List (BitVec 8) → Option (BitVec 16)
  | [a, b, c] => if c ≠ 0 ∧ crc8 [a, b] = c then some (a ++ b) else none
  | _ => none

/-- The sample of a reply that may be held: a measurement, not to be discarded, read in full, and good (R90). -/
def holdable (r : Reply) : Option (BitVec 16) :=
  if r.kind = .measurement ∧ r.toDiscard = false then
    match r.report with
    | .inFull bytes => goodSample bytes
    | .packetError => none
  else none

/-- The held sample and `HV` as the source means them: told from the replies behind the requests, not from the windows. -/
def sampleAfterReply (x : BitVec 32 × BitVec 1) (p : Presentation) : BitVec 32 × BitVec 1 :=
  match decode p.request with
  | .instr .srst => (0, 0)
  | .instr (.valMeas _ _ _) =>
    match p.reply.bind holdable with
    | some w => (w.signExtend 32, 1)
    | none => x
  | _ => x

/-- A number in the range of a 16-bit field (R51). -/
def InWord (v : Int) : Prop := 0 ≤ v ∧ v ≤ 0xFFFF

/-- A number in the range of a signed `B` (R51; log entry 12). -/
def InSigned (v : Int) : Prop := -32768 ≤ v ∧ v ≤ 32767

/-- A number in the range of a byte (R51). -/
def InByte (v : Int) : Prop := 0 ≤ v ∧ v ≤ 0xFF

/-- A line without operands assembles to a request that decodes to `i`. -/
def AssemblesTo (l : AsmLine) (i : Instr) : Prop := ∃ q, assemble l = some q ∧ decode q = .instr i

/-- A line with the one operand `A`, whose range is `fits`: in range it assembles to a field of that value, out of range it
is an assembly error. -/
def ExactA (fits : Int → Prop) (l : Int → AsmLine) (i : BitVec 16 → Instr) : Prop :=
  ∀ a, (fits a → ∃ v, AssemblesTo (l a) (i v) ∧ (v.toNat : Int) = a) ∧ (¬ fits a → assemble (l a) = none)

/-- A line with the operands `A` and `B`; `B` has the range `fitsB` and is read from its field by `valueB`. -/
def ExactAB (fitsB : Int → Prop) (valueB : BitVec 16 → Int) (l : Int → Int → AsmLine)
    (i : BitVec 16 → BitVec 16 → Instr) : Prop :=
  ∀ a b, (InWord a ∧ fitsB b → ∃ u v, AssemblesTo (l a b) (i u v) ∧ (u.toNat : Int) = a ∧ valueB v = b) ∧
    (¬ (InWord a ∧ fitsB b) → assemble (l a b) = none)

/-- A line with the three bytes of a measurement reply. -/
def ExactReply (l : Int → Int → Int → AsmLine) (i : BitVec 8 → BitVec 8 → BitVec 8 → Instr) : Prop :=
  ∀ x y z, (InByte x ∧ InByte y ∧ InByte z → ∃ u v w, AssemblesTo (l x y z) (i u v w) ∧ (u.toNat : Int) = x ∧
      (v.toNat : Int) = y ∧ (w.toNat : Int) = z) ∧
    (¬ (InByte x ∧ InByte y ∧ InByte z) → assemble (l x y z) = none)

end Sys2Proof.Stated

open Sys2Proof Sys2Proof.Machine Sys2Proof.Stated

/-! ### Reset -/

/-- 10_state.md R24: the reset values, after reset and after `SRST`; no response until the first request; `DEV_ADDR`
at all times. -/
def Obligations.ResetAndSrstLeaveResetValues : Prop :=
  State.reset.acc = 0xFF ∧ State.reset.smp = 0x00000000 ∧ State.reset.hv = 0 ∧ State.reset.rsp = none ∧
  (∀ s, ∃ t, exec .srst s = .next t ∧ t.acc = 0xFF ∧ t.smp = 0x00000000 ∧ t.hv = 0) ∧
  ∀ s : State, s.devAddrOut = 0x2E

/-- 70_reset_and_hazards.md R85: the reset event. That it reaches the model as an input of the step is log entry 4. -/
def Obligations.ResetEventSetsRegistersAndAnswersNothing : Prop :=
  ∀ s rest, s.inputs = .reset :: rest →
    step s = .next { acc := 0xFF, smp := 0x00000000, hv := 0, inputs := rest, rsp := none }

/-! ### The operations, one rule each -/

/-- 43_control.md R71: `NOP`. -/
def Obligations.NopAnswersDefaultsOnly : Prop :=
  (∀ w, LegalWord 0x0 w → decode (.word w) = .instr .nop) ∧
  ∀ s, exec .nop s = answers s (blank s)

/-- 43_control.md R72: `SRST`. -/
def Obligations.SrstResetsTheBlock : Prop :=
  (∀ w, LegalWord 0x1 w → decode (.word w) = .instr .srst) ∧
  ∀ s, exec .srst s = answers { s with acc := 0xFF, smp := 0x00000000, hv := 0 }
    { blank s with smp := 0x00000000, hv := 0 }

/-- 40_codec.md R55: `SWAP16`, with its corner cases. -/
def Obligations.SwapReversesTheBytes : Prop :=
  (∀ w, LegalWord 0x2 w → decode (.word w) = .instr (.swap16 (w.extractLsb' 16 16))) ∧
  (∀ a s, exec (.swap16 a) s = answers s { blank s with r0 := a.extractLsb' 0 8 ++ a.extractLsb' 8 8 }) ∧
  (∀ (a : BitVec 16), a.extractLsb' 0 8 = a.extractLsb' 8 8 →
    ∀ s, exec (.swap16 a) s = answers s { blank s with r0 := a }) ∧
  ∀ (a : BitVec 16) s, exec (.swap16 (a.extractLsb' 0 8 ++ a.extractLsb' 8 8)) s = answers s { blank s with r0 := a }

/-- 40_codec.md R56: `CRC_INIT`. -/
def Obligations.CrcInitSetsTheSeed : Prop :=
  (∀ w, LegalWord 0x3 w → decode (.word w) = .instr .crcInit) ∧
  ∀ s, exec .crcInit s = answers { s with acc := 0xFF } { blank s with r0 := 0x00FF }

/-- 40_codec.md R57: `CRC_UPD`, with its corner cases. -/
def Obligations.CrcUpdFeedsOneByte : Prop :=
  (∀ w, LegalWord 0x4 w → decode (.word w) = .instr (.crcUpd (w.extractLsb' 16 16))) ∧
  (∀ a s, exec (.crcUpd a) s = answers { s with acc := crc8Byte s.acc (a.extractLsb' 0 8) }
    { blank s with r0 := (crc8Byte s.acc (a.extractLsb' 0 8)).setWidth 16 }) ∧
  (∀ (a b : BitVec 16), a.extractLsb' 0 8 = b.extractLsb' 0 8 → ∀ s, exec (.crcUpd a) s = exec (.crcUpd b) s) ∧
  ∀ s (a : BitVec 16), a.extractLsb' 0 8 = s.acc →
    exec (.crcUpd a) s = answers { s with acc := 0x00 } (blank s)

/-- 40_codec.md R58: `CRC_READ`. -/
def Obligations.CrcReadShowsTheAccumulator : Prop :=
  (∀ w, LegalWord 0x5 w → decode (.word w) = .instr .crcRead) ∧
  ∀ s, exec .crcRead s = answers s { blank s with r0 := s.acc.setWidth 16 }

/-- 40_codec.md R59: `CRC2`. -/
def Obligations.Crc2IsTheCrcOfTheWordInWireOrder : Prop :=
  (∀ w, LegalWord 0x6 w → decode (.word w) = .instr (.crc2 (w.extractLsb' 16 16))) ∧
  ∀ a s, exec (.crc2 a) s = answers s
    { blank s with r0 := (crc8 [a.extractLsb' 8 8, a.extractLsb' 0 8]).setWidth 16 }

/-- 41_encoder.md R61: `ENC2`. -/
def Obligations.Enc2BuildsTheTwoByteFrame : Prop :=
  (∀ w, LegalWord 0x7 w → decode (.word w) = .instr (.enc2 (w.extractLsb' 16 16))) ∧
  ∀ a s, exec (.enc2 a) s = answers s
    { blank s with txlen := 2, tx := #v[a.extractLsb' 8 8, a.extractLsb' 0 8, 0, 0, 0] }

/-- 41_encoder.md R62: `ENC5`. -/
def Obligations.Enc5BuildsTheFiveByteFrame : Prop :=
  (∀ w, LegalWord 0x8 w → decode (.word w) = .instr (.enc5 (w.extractLsb' 16 16) (w.extractLsb' 32 16))) ∧
  ∀ a b s, exec (.enc5 a b) s = answers s
    { blank s with
      txlen := 5
      tx := #v[a.extractLsb' 8 8, a.extractLsb' 0 8, b.extractLsb' 8 8, b.extractLsb' 0 8,
        crc8 [b.extractLsb' 8 8, b.extractLsb' 0 8]] }

/-- 41_encoder.md R63: `ENC5_O2_LO0`. -/
def Obligations.Enc5O2Lo0ClampsToZeroTo100 : Prop :=
  (∀ w, LegalWord 0x9 w → decode (.word w) = .instr (.enc5O2Lo0 (w.extractLsb' 16 16) (w.extractLsb' 32 16))) ∧
  ∀ a b s, exec (.enc5O2Lo0 a b) s = answers s (o2Answer s 0 a b)

/-- 41_encoder.md R64: `ENC5_O2_LO21`. -/
def Obligations.Enc5O2Lo21ClampsTo21To100 : Prop :=
  (∀ w, LegalWord 0xA w → decode (.word w) = .instr (.enc5O2Lo21 (w.extractLsb' 16 16) (w.extractLsb' 32 16))) ∧
  ∀ a b s, exec (.enc5O2Lo21 a b) s = answers s (o2Answer s 21 a b)

/-- 42_validator.md R67: `VAL_MEAS`. -/
def Obligations.ValMeasHoldsOnlyGoodSamples : Prop :=
  (∀ w, LegalWord 0xB w →
    decode (.word w) = .instr (.valMeas (w.extractLsb' 48 8) (w.extractLsb' 56 8) (w.extractLsb' 64 8))) ∧
  (∀ a b s, exec (.valMeas a b 0x00) s = answers s { blank s with st := 2 }) ∧
  (∀ a b c s, c ≠ 0x00 → crc8 [a, b] ≠ c → exec (.valMeas a b c) s = answers s { blank s with st := 1 }) ∧
  ∀ a b c s, c ≠ 0x00 → crc8 [a, b] = c →
    exec (.valMeas a b c) s = answers { s with smp := (a ++ b : BitVec 16).signExtend 32, hv := 1 }
      { blank s with r0 := a ++ b, smp := (a ++ b : BitVec 16).signExtend 32, hv := 1 }

/-- 42_validator.md R68: `VAL_DISC`. -/
def Obligations.ValDiscReportsAndNeverStores : Prop :=
  (∀ w, LegalWord 0xD w →
    decode (.word w) = .instr (.valDisc (w.extractLsb' 48 8) (w.extractLsb' 56 8) (w.extractLsb' 64 8))) ∧
  (∀ a b s, exec (.valDisc a b 0x00) s = answers s { blank s with st := 2 }) ∧
  (∀ a b c s, c ≠ 0x00 → crc8 [a, b] ≠ c → exec (.valDisc a b c) s = answers s { blank s with st := 1 }) ∧
  ∀ a b c s, c ≠ 0x00 → crc8 [a, b] = c → exec (.valDisc a b c) s = answers s { blank s with r0 := a ++ b }

/-- 42_validator.md R69: `VAL_SET`. -/
def Obligations.ValSetParsesAndChecksEachField : Prop :=
  (∀ w, LegalWord 0xC w → decode (.word w) = .instr (.valSet (w.extractLsb' 48 8) (w.extractLsb' 56 8)
    (w.extractLsb' 64 8) (w.extractLsb' 72 8) (w.extractLsb' 80 8) (w.extractLsb' 88 8) (w.extractLsb' 96 8)
    (w.extractLsb' 104 8) (w.extractLsb' 112 8))) ∧
  ∀ x0 x1 x2 x3 x4 x5 x6 x7 x8 s, ∃ st fl,
    exec (.valSet x0 x1 x2 x3 x4 x5 x6 x7 x8) s
      = answers s { blank s with st := st, r0 := x0 ++ x1, r1 := x3 ++ x4, r2 := x6 ++ x7, fl := fl } ∧
    (fl.getLsbD 0 = true ↔ crc8 [x0, x1] = x2) ∧
    (fl.getLsbD 1 = true ↔ crc8 [x3, x4] = x5) ∧
    (fl.getLsbD 2 = true ↔ crc8 [x6, x7] = x8) ∧
    (fl.getLsbD 3 = true ↔ x0 = 0 ∧ x1 = 0) ∧
    fl.extractLsb' 4 4 = 0 ∧
    st = if crc8 [x0, x1] = x2 ∧ crc8 [x3, x4] = x5 ∧ crc8 [x6, x7] = x8 then 0 else 1

/-- 30_encoding.md R49, first sentence: the illegal codes, whatever the other fields hold. -/
def Obligations.IllegalCodesRaiseIllegalOp : Prop :=
  (∀ w : BitVec 128, w.extractLsb' 0 4 = 0xE → decode (.word w) = .instr .illegalE) ∧
  (∀ w : BitVec 128, w.extractLsb' 0 4 = 0xF → decode (.word w) = .instr .illegalF) ∧
  (∀ s, exec .illegalE s = answers s { blank s with st := 3 }) ∧
  ∀ s, exec .illegalF s = answers s { blank s with st := 3 }

/-! ### The sensor command words (their running as pseudo-instructions is DEDUCED, log entry 5) -/

/-- The five command words whose pseudo-instruction takes no argument build the frames R52 gives those pseudo-instructions.
That a bare command word runs at all, and as its pseudo-instruction, is the model's choice, DEDUCED: log entry 5. -/
def Obligations.SensorCommandsBuildTheirFrames : Prop :=
  (∀ s, exec .cmdReset s = answers s { blank s with txlen := 2, tx := #v[0x00, 0x06, 0, 0, 0] }) ∧
  (∀ s, exec .cmdStop s = answers s { blank s with txlen := 2, tx := #v[0x3F, 0xF9, 0, 0, 0] }) ∧
  (∀ s, exec .cmdReadSettings s
    = answers s { blank s with txlen := 5, tx := #v[0x36, 0x61, 0x36, 0x08, 0xD0] }) ∧
  (∀ s, exec .cmdStartAir s = answers s { blank s with txlen := 2, tx := #v[0x36, 0x08, 0, 0, 0] }) ∧
  ∀ s, exec .cmdStartO2 s = answers s { blank s with txlen := 2, tx := #v[0x36, 0x03, 0, 0, 0] }

/-- `change-O2-fraction` sends 0xE17D with the fraction clamped by the bound `O2_BOUND_OF` gives it, whichever that is
(R5, R52). Two choices of the model: that a bare command word runs as its pseudo-instruction is DEDUCED (log entry 5), and
that the fraction is the operand word of the bare command is a DESIGN CHOICE (log entry 6). -/
def Obligations.ChangeO2ClampsByTheOpenBound : Prop :=
  ∀ f s, exec (.cmdChangeO2 f) s = answers s (o2Answer s (openBound 0xE17D) 0xE17D f)

/-- Command word 0x3632 completes with the frame of the shape `MIX_FRAME_SHAPE` gives it, whichever that is; a 5-byte frame
carries the argument as the open `Config.mixArgKind` says (R5, R43, R44, R47). Two choices of the model: that a bare command
word runs at all is DEDUCED (log entry 5), and that the argument of a 5-byte frame is the operand word, sent as given or
clamped, is a DESIGN CHOICE (log entry 7). -/
def Obligations.MixtureCommandBuildsTheOpenShape : Prop :=
  ∀ arg s, exec (.cmdReadMixture arg) s = answers s
    (match Config.mixFrameShape with
      | .cmd2 => { blank s with txlen := 2, tx := #v[0x36, 0x32, 0, 0, 0] }
      | .cmd5 =>
        match Config.mixArgKind with
        | .plain =>
          { blank s with
            txlen := 5
            tx := #v[0x36, 0x32, arg.extractLsb' 8 8, arg.extractLsb' 0 8,
              crc8 [arg.extractLsb' 8 8, arg.extractLsb' 0 8]] }
        | .o2Fraction => o2Answer s (openBound 0x3632) 0x3632 arg)

/-- 30_encoding.md R47: the seven command words, and no other. (That an operand word is ignored by the commands without an
argument, and that an unlisted bare word is refused, is the model's choice: log entry 8.) -/
def Obligations.ListedCommandWordsDecode : Prop :=
  (∀ arg,
    decode (.command 0x0006 arg) = .instr .cmdReset ∧
    decode (.command 0x3FF9 arg) = .instr .cmdStop ∧
    decode (.command 0x3661 arg) = .instr .cmdReadSettings ∧
    decode (.command 0x3608 arg) = .instr .cmdStartAir ∧
    decode (.command 0x3603 arg) = .instr .cmdStartO2 ∧
    decode (.command 0x3632 arg) = .instr (.cmdReadMixture arg) ∧
    decode (.command 0xE17D arg) = .instr (.cmdChangeO2 arg)) ∧
  ∀ cmd arg, cmd ∉ [(0x0006 : BitVec 16), 0x3FF9, 0x3661, 0x3608, 0x3603, 0x3632, 0xE17D] →
    decode (.command cmd arg) = .unlistedCommand cmd

/-! ### Decoding and encoding -/

/-- 30_encoding.md R37: every operation code has exactly one meaning, read from the fields R36 gives it. -/
def Obligations.OperationCodeSelectsTheOperation : Prop :=
  ∀ w : BitVec 128,
    (w.extractLsb' 0 4 = 0xE → decode (.word w) = .instr .illegalE) ∧
    (w.extractLsb' 0 4 = 0xF → decode (.word w) = .instr .illegalF) ∧
    (w.extractLsb' 4 12 = 0 → w.extractLsb' 120 8 = 0 →
      ∀ a b : BitVec 16, a = w.extractLsb' 16 16 → b = w.extractLsb' 32 16 →
      ∀ x : Fin 9 → BitVec 8, (∀ k, x k = w.extractLsb' (48 + 8 * k.val) 8) →
        (w.extractLsb' 0 4 = 0x0 → decode (.word w) = .instr .nop) ∧
        (w.extractLsb' 0 4 = 0x1 → decode (.word w) = .instr .srst) ∧
        (w.extractLsb' 0 4 = 0x2 → decode (.word w) = .instr (.swap16 a)) ∧
        (w.extractLsb' 0 4 = 0x3 → decode (.word w) = .instr .crcInit) ∧
        (w.extractLsb' 0 4 = 0x4 → decode (.word w) = .instr (.crcUpd a)) ∧
        (w.extractLsb' 0 4 = 0x5 → decode (.word w) = .instr .crcRead) ∧
        (w.extractLsb' 0 4 = 0x6 → decode (.word w) = .instr (.crc2 a)) ∧
        (w.extractLsb' 0 4 = 0x7 → decode (.word w) = .instr (.enc2 a)) ∧
        (w.extractLsb' 0 4 = 0x8 → decode (.word w) = .instr (.enc5 a b)) ∧
        (w.extractLsb' 0 4 = 0x9 → decode (.word w) = .instr (.enc5O2Lo0 a b)) ∧
        (w.extractLsb' 0 4 = 0xA → decode (.word w) = .instr (.enc5O2Lo21 a b)) ∧
        (w.extractLsb' 0 4 = 0xB → decode (.word w) = .instr (.valMeas (x 0) (x 1) (x 2))) ∧
        (w.extractLsb' 0 4 = 0xC →
          decode (.word w) = .instr (.valSet (x 0) (x 1) (x 2) (x 3) (x 4) (x 5) (x 6) (x 7) (x 8))) ∧
        (w.extractLsb' 0 4 = 0xD → decode (.word w) = .instr (.valDisc (x 0) (x 1) (x 2))))

/-- 30_encoding.md R38: the reserved fields are checked, and nothing else is. -/
def Obligations.ReservedFieldsMustBeZero : Prop :=
  ∀ w : BitVec 128, w.extractLsb' 0 4 ≠ 0xE → w.extractLsb' 0 4 ≠ 0xF →
    ((w.extractLsb' 4 12 ≠ 0 ∨ w.extractLsb' 120 8 ≠ 0) →
      ∀ s rest, Presents s (.word w) rest → step s = answers { s with inputs := rest } { blank s with st := 4 }) ∧
    (w.extractLsb' 4 12 = 0 → w.extractLsb' 120 8 = 0 → ∃ i, decode (.word w) = .instr i)

/-- Decoding the encoding of any instruction gives it back, with every operand at every value. -/
def Obligations.DecodeOfEncodeIsTheInstruction : Prop :=
  ∀ i : Instr, decode (encode i) = .instr i

/-- Decoding of seven request words written out from the encoding (95_test_vectors.md sections 2.3 to 2.7), and of one bare
command word, 0x3FF9 of R47, which is no request word and no vector: that it decodes by itself, its operand word 0 ignored, is
the model's choice (log entries 5 and 8). -/
def Obligations.WrittenOutWordsDecode : Prop :=
  decode (.word 0x00000000000000000000000036610002) = .instr (.swap16 0x3661) ∧
  decode (.word 0x00000000000000000000360836610008) = .instr (.enc5 0x3661 0x3608) ∧
  decode (.word 0x0000000000000059AAA000000000000B) = .instr (.valMeas 0xA0 0xAA 0x59) ∧
  decode (.word 0x00F148017E00A0A6AA0000000000000C)
    = .instr (.valSet 0x00 0xAA 0xA6 0xA0 0x00 0x7E 0x01 0x48 0xF1) ∧
  decode (.word 0x00000000000000000055000012340000) = .instr .nop ∧
  decode (.word 0x0000000000000000000000000000FFFF) = .instr .illegalF ∧
  decode (.word 0x80000000000000000000000000000001) = .reservedBits ∧
  decode (.command 0x3FF9 0) = .instr .cmdStop

/-- 30_encoding.md R51, over numbers, for every mnemonic: operands that fit assemble to fields of those very values, and a
line with an operand that does not fit is an assembly error, never a truncation; whatever assembles is well-formed. (Which
numbers a signed `B` admits is the model's choice, log entry 12.) -/
def Obligations.AssemblyIsExactOrAnError : Prop :=
  (∀ l q, assemble l = some q → decode q = .instr l.instr ∧ l.instr.wellFormed = true) ∧
  AssemblesTo .nop .nop ∧ AssemblesTo .srst .srst ∧ AssemblesTo .crcInit .crcInit ∧ AssemblesTo .crcRead .crcRead ∧
  ExactA InWord .swap16 .swap16 ∧ ExactA InByte .crcUpd .crcUpd ∧ ExactA InWord .crc2 .crc2 ∧ ExactA InWord .enc2 .enc2 ∧
  ExactAB InWord (fun v => (v.toNat : Int)) .enc5 .enc5 ∧
  ExactAB InSigned (fun v => v.toInt) .enc5O2Lo0 .enc5O2Lo0 ∧
  ExactAB InSigned (fun v => v.toInt) .enc5O2Lo21 .enc5O2Lo21 ∧
  ExactReply .valMeas .valMeas ∧ ExactReply .valDisc .valDisc ∧
  ∀ x : Fin 9 → Int,
    ((∀ k, InByte (x k)) → ∃ v : Fin 9 → BitVec 8,
      AssemblesTo (.valSet (x 0) (x 1) (x 2) (x 3) (x 4) (x 5) (x 6) (x 7) (x 8))
        (.valSet (v 0) (v 1) (v 2) (v 3) (v 4) (v 5) (v 6) (v 7) (v 8)) ∧ ∀ k, ((v k).toNat : Int) = x k) ∧
    (¬ (∀ k, InByte (x k)) →
      assemble (.valSet (x 0) (x 1) (x 2) (x 3) (x 4) (x 5) (x 6) (x 7) (x 8)) = none)

/-- 30_encoding.md R51: every line assembles to one request word whose reserved fields, unused operand fields and unused
window bytes are zero, `CRC_UPD`'s `A[15:8]` among them. -/
def Obligations.UnusedFieldsAssembleAsZero : Prop :=
  ∀ l q, assemble l = some q → ∃ w : BitVec 128, q = .word w ∧
    w.extractLsb' 4 12 = 0 ∧ w.extractLsb' 120 8 = 0 ∧
    (w.extractLsb' 0 4 ∉ [(0x2 : BitVec 4), 0x4, 0x6, 0x7, 0x8, 0x9, 0xA] → w.extractLsb' 16 16 = 0) ∧
    (w.extractLsb' 0 4 = 0x4 → w.extractLsb' 24 8 = 0) ∧
    (w.extractLsb' 0 4 ∉ [(0x8 : BitVec 4), 0x9, 0xA] → w.extractLsb' 32 16 = 0) ∧
    (∀ k : Nat, k < 3 → w.extractLsb' 0 4 ∉ [(0xB : BitVec 4), 0xC, 0xD] → w.extractLsb' (48 + 8 * k) 8 = 0) ∧
    ∀ k : Nat, 3 ≤ k → k < 9 → w.extractLsb' 0 4 ≠ 0xC → w.extractLsb' (48 + 8 * k) 8 = 0

/-- 30_encoding.md R52: each pseudo-instruction expands to one request and builds the frame of its row; the O2 rows take
a fraction in the range of a signed 16-bit integer. -/
def Obligations.PseudoInstructionsExpandToOneRequest : Prop :=
  assemble .cmdReset = assemble (.enc2 0x0006) ∧ BuildsFrame .cmdReset 2 #v[0x00, 0x06, 0, 0, 0] ∧
  assemble .cmdStop = assemble (.enc2 0x3FF9) ∧ BuildsFrame .cmdStop 2 #v[0x3F, 0xF9, 0, 0, 0] ∧
  assemble .cmdReadSettings = assemble (.enc5 0x3661 0x3608) ∧
  BuildsFrame .cmdReadSettings 5 #v[0x36, 0x61, 0x36, 0x08, 0xD0] ∧
  assemble .cmdStartAir = assemble (.enc2 0x3608) ∧ BuildsFrame .cmdStartAir 2 #v[0x36, 0x08, 0, 0, 0] ∧
  assemble .cmdStartO2 = assemble (.enc2 0x3603) ∧ BuildsFrame .cmdStartO2 2 #v[0x36, 0x03, 0, 0, 0] ∧
  (∀ f : Int, assemble (.cmdSetO2Lo0 f) = assemble (.enc5O2Lo0 0xE17D f) ∧
    assemble (.cmdSetO2Lo21 f) = assemble (.enc5O2Lo21 0xE17D f)) ∧
  ∀ f : Int, -32768 ≤ f → f ≤ 32767 →
    (∃ q i, assemble (.cmdSetO2Lo0 f) = some q ∧ decode q = .instr i ∧
      ∀ s, exec i s = answers s (o2Answer s 0 0xE17D (BitVec.ofInt 16 f))) ∧
    ∃ q i, assemble (.cmdSetO2Lo21 f) = some q ∧ decode q = .instr i ∧
      ∀ s, exec i s = answers s (o2Answer s 21 0xE17D (BitVec.ofInt 16 f))

/-! ### The step -/

/-- A step serves the first input and runs exactly what it decodes to, on the state with that input taken. -/
def Obligations.StepRunsTheDecodedInstruction : Prop :=
  ∀ s q rest i, Presents s q rest → decode q = .instr i → step s = exec i { s with inputs := rest }

/-- The steps that run no instruction. With nothing presented the step delivers no response and changes nothing else
(the model's choice, log entry 3); a bare command word that R47 does not list is refused by name (log entry 8). -/
def Obligations.StepsThatRunNoInstruction : Prop :=
  (∀ s : State, s.inputs = [] → step s = .next { s with rsp := none }) ∧
  ∀ s cmd arg rest, Presents s (.command cmd arg) rest → decode (.command cmd arg) = .unlistedCommand cmd →
    step s = .refused (.unlistedCommand cmd)

/-- 60_exceptions.md R73: every request word, in every state, completes with a response; no step faults or is refused. -/
def Obligations.EveryRequestCompletesWithOneResponse : Prop :=
  ∀ s w rest, Presents s (.word w) rest →
    ∃ t r, step s = .next t ∧ t.inputs = rest ∧ t.rsp = some r ∧ r.smp = t.smp ∧ r.hv = t.hv

/-- Every instruction completes: its request is answered, the response shows the held sample as it stands after the
step (R21), and nothing else the requester presents is touched. -/
def Obligations.EveryInstructionCompletes : Prop :=
  ∀ i s, ∃ t r, exec i s = .next t ∧ t.inputs = s.inputs ∧ t.rsp = some r ∧ r.smp = t.smp ∧ r.hv = t.hv

/-- 60_exceptions.md R80: exactly one status is reported, by this priority, for every 128-bit request in every state. -/
def Obligations.StatusFollowsThePriority : Prop :=
  ∀ s w rest, Presents s (.word w) rest → ∃ t r, step s = .next t ∧ t.rsp = some r ∧ r.st = statusOf w

/-- 60_exceptions.md R79: a request that raises a status leaves every register as it was and answers the defaults with
the status. (`VAL_SET` reports `CRC_ERR` without raising it, R69.) -/
def Obligations.RaisedStatusChangesNoRegister : Prop :=
  ∀ s w rest, Presents s (.word w) rest → statusOf w ≠ 0 → w.extractLsb' 0 4 ≠ 0xC ∨ statusOf w = 4 →
    step s = answers { s with inputs := rest } { blank s with st := statusOf w }

/-- 60_exceptions.md R82, last sentence: "the next request runs as if the failed one had not been made", whatever failed
and whatever comes next. -/
def Obligations.FailedRequestLeavesNoTrace : Prop :=
  ∀ s w rest, Presents s (.word w) rest → statusOf w ≠ 0 →
    ∃ t, step s = .next t ∧ step t = step { s with inputs := rest }

/-- 10_state.md R23: the response port holds nothing a later step can observe; states that agree in the registers and in
what is presented step alike. -/
def Obligations.NoHiddenState : Prop :=
  ∀ s s' : State, s.acc = s'.acc → s.smp = s'.smp → s.hv = s'.hv → s.inputs = s'.inputs → step s = step s'

/-- 20_memory.md R34: requests take effect one at a time in the order presented; a sequence of request words is served
whole, each request in one step, whatever follows it. -/
def Obligations.RequestsAreServedInOrder : Prop :=
  ∀ (ws : List (BitVec 128)) (s : State) rest,
    s.inputs = ws.map (fun w => Input.present (.word w)) ++ rest →
    ∃ t, core.run ws.length s = .next t ∧ t.inputs = rest ∧
      ∀ s' : State, s'.acc = s.acc → s'.smp = s.smp → s'.hv = s.hv →
        s'.inputs = ws.map (fun w => Input.present (.word w)) →
        ∃ t', core.run ws.length s' = .next t' ∧ t'.acc = t.acc ∧ t'.smp = t.smp ∧ t'.hv = t.hv

/-! ### Who writes and reads the registers -/

/-- 10_state.md R14: `ACC` changes only by `CRC_INIT`, `CRC_UPD`, `SRST` and reset. -/
def Obligations.AccChangesOnlyByItsWriters : Prop :=
  ∀ s t : State, step s = .next t → t.acc ≠ s.acc →
    (∃ rest, s.inputs = .reset :: rest ∧ t.acc = 0xFF) ∨
    ∃ q rest, Presents s q rest ∧
      ((decode q = .instr .srst ∧ t.acc = 0xFF) ∨ (decode q = .instr .crcInit ∧ t.acc = 0xFF) ∨
        ∃ a : BitVec 16, decode q = .instr (.crcUpd a) ∧ t.acc = crc8Byte s.acc (a.extractLsb' 0 8))

/-- 10_state.md R14: no operation but `CRC_UPD` and `CRC_READ` reads `ACC`: with another value in it, every other
instruction gives the same response and leaves the same sample. -/
def Obligations.AccIsReadOnlyByTheStream : Prop :=
  ∀ i s v, (∀ a, i ≠ .crcUpd a) → i ≠ .crcRead →
    ∃ t t', exec i s = .next t ∧ exec i { s with acc := v } = .next t' ∧
      t'.rsp = t.rsp ∧ t'.smp = t.smp ∧ t'.hv = t.hv

/-- 10_state.md R15 and R16: `SMP` and `HV` change only when `VAL_MEAS` accepts a reply, and by `SRST` and reset. -/
def Obligations.SampleChangesOnlyByItsWriters : Prop :=
  ∀ s t : State, step s = .next t → t.smp ≠ s.smp ∨ t.hv ≠ s.hv →
    (∃ rest, s.inputs = .reset :: rest ∧ t.smp = 0 ∧ t.hv = 0) ∨
    ∃ q rest, Presents s q rest ∧
      ((decode q = .instr .srst ∧ t.smp = 0 ∧ t.hv = 0) ∨
        ∃ a b c, decode q = .instr (.valMeas a b c) ∧ c ≠ 0 ∧ crc8 [a, b] = c ∧
          t.smp = (a ++ b : BitVec 16).signExtend 32 ∧ t.hv = 1)

/-- 20_memory.md R32: repeating any instruction but `CRC_UPD` gives the same response and the same state. -/
def Obligations.RepeatingAnOperationChangesNothing : Prop :=
  ∀ i s, (∀ a, i ≠ .crcUpd a) → ∃ t, exec i s = .next t ∧ exec i t = .next t

/-! ### Invariants -/

/-- `Consistent` holds at reset. -/
def Obligations.ConsistentAtReset : Prop := Consistent State.reset

/-- Every step keeps `Consistent`: the held sample is a sign-extended sample, zero unless `HV = 1`, and the response has
the shape of R20 and shows it. -/
def Obligations.StepKeepsConsistent : Prop :=
  ∀ s t, Consistent s → step s = .next t → Consistent t

/-! ### The CRC -/

/-- The byte step is the table of 95_test_vectors.md section 2.1, for every CRC state and byte. -/
def Obligations.CrcByteStepIsTheTable : Prop :=
  ∀ c b : BitVec 8, crcTable[(c ^^^ b).toNat]? = some (crc8Byte c b)

/-- 40_codec.md R54: the CRC of a sequence, and its laws (a), (b) and (c). -/
def Obligations.CrcOfASequenceAndItsLaws : Prop :=
  crc8 [] = 0xFF ∧
  (∀ s b, crc8 (s ++ [b]) = crc8Byte (crc8 s) b) ∧
  (∀ s, crc8 (s ++ [crc8 s]) = 0x00) ∧
  crc8 [0x36, 0x08] = 0xD0

/-- 40_codec.md R54, law (d): exactly 256 of the 65,536 two-byte sequences have a CRC of zero. -/
def Obligations.ZeroCrcWordsNumber256 : Prop :=
  ((Finset.range 65536).filter
    (fun n => crc8 [(BitVec.ofNat 16 n).extractLsb' 8 8, (BitVec.ofNat 16 n).extractLsb' 0 8] = 0x00)).card = 256

/-- 40_codec.md R57 and 70_reset_and_hazards.md R88: a stream of `CRC_UPD` requests after a `CRC_INIT`, with any other
requests between them but `CRC_INIT` and `SRST`, leaves in `ACC` the CRC of exactly the bytes fed; after reset or `SRST` the
`CRC_INIT` may be left out (R87). The requests are any words at all, judged by what they decode to: unused fields may hold
anything, and a refused request, a `CRC_UPD` among them, feeds nothing. (Bare command words may stand among them as well; that
they run is the model's choice, log entry 5.) -/
def Obligations.CrcStreamComputesTheCrc : Prop :=
  ∀ (qs : List Request) (s : State) rest, (∀ q ∈ qs, Presentable q ∧ requestStreamSafe q = true) →
    (∀ q0, decode q0 = .instr .crcInit ∨ decode q0 = .instr .srst →
      s.inputs = .present q0 :: qs.map Input.present ++ rest →
      ∃ t, core.run (qs.length + 1) s = .next t ∧ t.inputs = rest ∧ t.acc = crc8 (qs.filterMap requestByte)) ∧
    (s.acc = 0xFF → s.inputs = qs.map Input.present ++ rest →
      ∃ t, core.run qs.length s = .next t ∧ t.inputs = rest ∧ t.acc = crc8 (qs.filterMap requestByte))

/-! ### Samples and frames -/

/-- 10_state.md R15 and R16 over a whole sequence of requests: `SMP` and `HV` are those of the last reply `VAL_MEAS`
accepted since the last `SRST`, or as they were. The requests are any words at all, judged by what they decode to: unused fields
may hold anything, and a refused request, an `SRST` among them, changes nothing. (Bare command words may stand among them as
well; that they run is the model's choice, log entry 5.) -/
def Obligations.HeldSampleIsTheLastAccepted : Prop :=
  ∀ (qs : List Request) (s : State) rest, (∀ q ∈ qs, Presentable q) → s.inputs = qs.map Input.present ++ rest →
    ∃ t, core.run qs.length s = .next t ∧ t.inputs = rest ∧
      (t.smp, t.hv) = qs.foldl sampleAfterRequest (s.smp, s.hv)

/-- 42_validator.md R70: a sample whose CRC is zero is never accepted, whatever its CRC byte, and its correct reply is
reported `NO_DATA`. -/
def Obligations.SentinelDiscardsZeroCrcSamples : Prop :=
  ∀ a b s, crc8 [a, b] = 0x00 →
    (∀ c, ∃ t r, exec (.valMeas a b c) s = .next t ∧ t.smp = s.smp ∧ t.hv = s.hv ∧ t.rsp = some r ∧ r.st ≠ 0) ∧
    exec (.valMeas a b 0x00) s = answers s { blank s with st := 2 }

/-- The argument and CRC bytes `ENC5` puts on the wire are a field `VAL_SET` finds correct and, unless that CRC is the
sentinel, a reply `VAL_MEAS` accepts as the same 16 bits (R44, R45, R67, R69). -/
def Obligations.EncodedFieldsValidate : Prop :=
  ∀ a b s, ∃ t r, exec (.enc5 a b) s = .next t ∧ t.rsp = some r ∧
    crc8 [r.tx[2], r.tx[3], r.tx[4]] = 0x00 ∧
    (∀ u, ∃ t' r', exec (.valSet r.tx[2] r.tx[3] r.tx[4] r.tx[2] r.tx[3] r.tx[4] r.tx[2] r.tx[3] r.tx[4]) u = .next t' ∧
      t'.rsp = some r' ∧ r'.st = 0 ∧ r'.r0 = b ∧ r'.r1 = b ∧ r'.r2 = b) ∧
    (r.tx[4] ≠ 0 → ∀ u, ∃ t' r', exec (.valMeas r.tx[2] r.tx[3] r.tx[4]) u = .next t' ∧ t'.rsp = some r' ∧
      r'.st = 0 ∧ r'.r0 = b ∧ t'.smp = b.signExtend 32 ∧ t'.hv = 1)

/-- 41_encoder.md R60: the clamp on integers, and the clamped signed fraction as the unsigned word of the same value. -/
def Obligations.ClampedFractionKeepsItsValue : Prop :=
  (∀ v lo hi : Int, lo ≤ hi → lo ≤ clamp v lo hi ∧ clamp v lo hi ≤ hi ∧ (lo ≤ v → v ≤ hi → clamp v lo hi = v) ∧
    (v < lo → clamp v lo hi = lo) ∧ (hi < v → clamp v lo hi = hi)) ∧
  ∀ (b : BitVec 16) (lo : Int), lo = 0 ∨ lo = 21 →
    ((argWord (clamp b.toInt lo 100)).toNat : Int) = clamp b.toInt lo 100

/-- 41_encoder.md R65: every command word is accepted in every shape and with every bound, and sent first. -/
def Obligations.EncodersAcceptEveryCommandWord : Prop :=
  ∀ (a b : BitVec 16) s, ∀ i ∈ [Instr.enc2 a, .enc5 a b, .enc5O2Lo0 a b, .enc5O2Lo21 a b],
    ∃ t r, exec i s = .next t ∧ t.rsp = some r ∧ r.st = 0 ∧ r.tx[0] = a.extractLsb' 8 8 ∧
      r.tx[1] = a.extractLsb' 0 8 ∧ r.txlen = if i = .enc2 a then 2 else 5

/-- 70_reset_and_hazards.md R90, item 3, the shapes: a requester that keeps the frame shapes of R47 sends each command word
that R47 binds in its shape, and 0x3632 in the shape `MIX_FRAME_SHAPE` says (R5), whichever that is. -/
def Obligations.TableShapeDutyGivesTableFrames : Prop :=
  ∀ (a b : BitVec 16) s, ∀ i ∈ [Instr.enc2 a, .enc5 a b, .enc5O2Lo0 a b, .enc5O2Lo21 a b], keepsTableShape i = true →
    ∃ t r, exec i s = .next t ∧ t.rsp = some r ∧ (a ∈ [(0x0006 : BitVec 16), 0x3FF9, 0x3608, 0x3603] → r.txlen = 2) ∧
      (a ∈ [(0x3661 : BitVec 16), 0xE17D] → r.txlen = 5) ∧
      (a = 0x3632 → r.txlen = match Config.mixFrameShape with | .cmd2 => 2 | .cmd5 => 5)

/-- R90, item 3, the bounds: of a requester that keeps the duty, a command word sent through an O2 encoder, and an O2 command
however it is sent, goes out with the fraction clamped by the bound `O2_BOUND_OF` gives that word (R5, R63, R64, R65), whichever
that is. 0xE17D is such a command (R47), so it is sent neither with the other bound nor unclamped. (That 0x3632 is one if its
open argument is a fraction is the model's reading, log entries 7 and 13.) -/
def Obligations.CommandDutyGivesTheChosenBound : Prop :=
  isO2Command 0xE17D = true ∧
  ∀ (p : Presentation) s rest (a b : BitVec 16) i, Presents s p.request rest → p.keepsCommandDuty = true →
    decode p.request = .instr i → i ∈ [Instr.enc2 a, .enc5 a b, .enc5O2Lo0 a b, .enc5O2Lo21 a b] →
    (i = .enc5O2Lo0 a b ∨ i = .enc5O2Lo21 a b ∨ isO2Command a = true) →
    step s = answers { s with inputs := rest } (o2Answer s (openBound a) a b)

/-- R90, items 1, 2 and 4: of a requester that keeps these duties (in the form of log entry 13), what the validators report is
of a reply of their kind that was read in full: a measurement reported `OK` is that reply's sample, and the settings returned
are that reply's fields. -/
def Obligations.ReplyDutiesGiveResultsOfWholeReplies : Prop :=
  ∀ (p : Presentation) s rest, Presents s p.request rest → p.keepsReplyDuties = true →
    (∀ a b c, decode p.request = .instr (.valMeas a b c) ∨ decode p.request = .instr (.valDisc a b c) →
      ∃ y t r, p.reply = some y ∧ y.kind = .measurement ∧ y.report = .inFull [a, b, c] ∧
        step s = .next t ∧ t.rsp = some r ∧ (r.st = 0 ↔ c ≠ 0 ∧ crc8 [a, b] = c) ∧ (r.st = 0 → r.r0 = a ++ b)) ∧
    ∀ x0 x1 x2 x3 x4 x5 x6 x7 x8, decode p.request = .instr (.valSet x0 x1 x2 x3 x4 x5 x6 x7 x8) →
      ∃ y t r, p.reply = some y ∧ y.kind = .settings ∧ y.report = .inFull [x0, x1, x2, x3, x4, x5, x6, x7, x8] ∧
        step s = .next t ∧ t.rsp = some r ∧ r.r0 = x0 ++ x1 ∧ r.r1 = x3 ++ x4 ∧ r.r2 = x6 ++ x7

/-- R90, items 1, 2 and 4 (in the form of log entry 13), over a whole sequence of presentations: of a requester that keeps these
duties, the held sample is
that of the last reply handed to `VAL_MEAS` that is a measurement, read in full, not the frame to discard, with a right CRC
byte that is not the sentinel; or zero since an `SRST`; or as it was. A short read, a settings reply and a frame to discard
never reach it. -/
def Obligations.ReplyDutiesMakeTheHeldSampleAMeasurement : Prop :=
  ∀ (ps : List Presentation) (s : State) rest, (∀ p ∈ ps, Presentable p.request ∧ p.keepsReplyDuties = true) →
    s.inputs = ps.map (fun p => Input.present p.request) ++ rest →
    ∃ t, core.run ps.length s = .next t ∧ t.inputs = rest ∧ (t.smp, t.hv) = ps.foldl sampleAfterReply (s.smp, s.hv)
end

