-- ==== Sys2Proof/Laws/Duties.lean ====
section
/-! SUPPORT. What a requester that keeps the duties of 70_reset_and_hazards.md R90 has done. -/

namespace Sys2Proof.Laws

/-- Items 1 and 2 of R90 for an operation that uses the window: there is a reply of its kind, read in full, and the window
holds its bytes. -/
theorem reply_of_duties {reply : Option Reply} {i : Instr} {bytes : List Byte} {kind : ReplyKind}
    (hb : windowBytes i = some bytes) (hk : windowKind i = some kind) (h1 : keepsReadInFull reply i = true)
    (h2 : keepsReplyKind reply i = true) : ∃ r, reply = some r ∧ r.kind = kind ∧ r.report = .inFull bytes := by
  rw [keepsReadInFull, hb] at h1
  rw [keepsReplyKind, hk] at h2
  cases reply with
  | none => simp at h1
  | some r => exact ⟨r, rfl, by simpa using h2, by simpa using h1⟩

/-- An O2 command has a 5-byte frame. -/
theorem tableShape_of_isO2Command {cmd : Word} (h : isO2Command cmd = true) : tableShape cmd = some .cmd5 := by
  revert h
  unfold isO2Command tableShape
  cases commandOf cmd with
  | none => simp
  | some c =>
    cases c
    case continuousReadMixture =>
      cases Config.mixFrameShape <;> simp
    all_goals simp

end Sys2Proof.Laws
end

