-- ==== Sys2Proof/Laws/Encoding.lean ====
section
/-! SUPPORT. The fields of an assembled request word: each reads back as it was placed, so that no later proof about the
encoding looks at a single bit. -/

namespace Sys2Proof.Laws

theorem getLsbD_fieldAt {n : Nat} (lo : Nat) (v : BitVec n) (i : Nat) (h : i < 128) :
    (fieldAt lo v).getLsbD i = (decide (lo ≤ i) && v.getLsbD (i - lo)) := by
  rcases Nat.lt_or_ge i lo with h' | h'
  · simp [fieldAt, h, h']
  · simp [fieldAt, h, h', Nat.not_lt.mpr h']

/-- A placed field reads back at its own bits. -/
theorem extract_fieldAt_self {n : Nat} (lo : Nat) (v : BitVec n) (h : lo + n ≤ 128) :
    (fieldAt lo v).extractLsb' lo n = v := by
  apply BitVec.eq_of_getLsbD_eq
  intro i hi
  rw [BitVec.getLsbD_extractLsb', getLsbD_fieldAt lo v _ (by omega)]
  simp [hi]

/-- A placed field leaves the bits of every other field zero. -/
theorem extract_fieldAt_disjoint {n : Nat} (lo lo' m : Nat) (v : BitVec n) (hm : lo' + m ≤ 128)
    (h : lo' + m ≤ lo ∨ lo + n ≤ lo') : (fieldAt lo v).extractLsb' lo' m = 0#m := by
  apply BitVec.eq_of_getLsbD_eq
  intro i hi
  rw [BitVec.getLsbD_extractLsb', getLsbD_fieldAt lo v _ (by omega)]
  rcases h with h | h
  · have : ¬ lo ≤ lo' + i := by omega
    simp [this]
  · have : v.getLsbD (lo' + i - lo) = false := BitVec.getLsbD_of_ge _ _ (by omega)
    simp [this]

section
variable (op : BitVec 4) (a b : Word) (rx0 rx1 rx2 rx3 rx4 rx5 rx6 rx7 rx8 : Byte)

@[simp] theorem reqOp_packRequest :
    reqOp (packRequest op a b rx0 rx1 rx2 rx3 rx4 rx5 rx6 rx7 rx8) = op := by
  simp (disch := omega) [reqOp, packRequest, BitVec.extractLsb'_or, extract_fieldAt_self, extract_fieldAt_disjoint]

@[simp] theorem reqRsv0_packRequest :
    reqRsv0 (packRequest op a b rx0 rx1 rx2 rx3 rx4 rx5 rx6 rx7 rx8) = 0#12 := by
  simp (disch := omega) [reqRsv0, packRequest, BitVec.extractLsb'_or, extract_fieldAt_disjoint]

@[simp] theorem reqRsv1_packRequest :
    reqRsv1 (packRequest op a b rx0 rx1 rx2 rx3 rx4 rx5 rx6 rx7 rx8) = 0#8 := by
  simp (disch := omega) [reqRsv1, packRequest, BitVec.extractLsb'_or, extract_fieldAt_disjoint]

@[simp] theorem reqA_packRequest :
    reqA (packRequest op a b rx0 rx1 rx2 rx3 rx4 rx5 rx6 rx7 rx8) = a := by
  simp (disch := omega) [reqA, packRequest, BitVec.extractLsb'_or, extract_fieldAt_self, extract_fieldAt_disjoint]

@[simp] theorem reqB_packRequest :
    reqB (packRequest op a b rx0 rx1 rx2 rx3 rx4 rx5 rx6 rx7 rx8) = b := by
  simp (disch := omega) [reqB, packRequest, BitVec.extractLsb'_or, extract_fieldAt_self, extract_fieldAt_disjoint]

/-- The window byte `k` of an assembled request is the `k`th byte given (R36). -/
theorem reqRx_packRequest (k : Nat) (hk : k < 9) :
    reqRx (packRequest op a b rx0 rx1 rx2 rx3 rx4 rx5 rx6 rx7 rx8) k
      = [rx0, rx1, rx2, rx3, rx4, rx5, rx6, rx7, rx8].getD k 0 := by
  interval_cases k <;>
    simp (disch := omega) [reqRx, packRequest, BitVec.extractLsb'_or, extract_fieldAt_self,
      extract_fieldAt_disjoint]

end

/-- The reserved fields of an assembled request are zero (R51). -/
@[simp] theorem reservedNonzero_packRequest (op : BitVec 4) (a b : Word)
    (rx0 rx1 rx2 rx3 rx4 rx5 rx6 rx7 rx8 : Byte) :
    reservedNonzero (packRequest op a b rx0 rx1 rx2 rx3 rx4 rx5 rx6 rx7 rx8) = false := by
  simp [reservedNonzero]

/-- The reserved check says exactly that a reserved field is not zero (R38). -/
theorem reservedNonzero_eq_false (w : ReqWord) :
    reservedNonzero w = false ↔ reqRsv0 w = 0 ∧ reqRsv1 w = 0 := by
  simp [reservedNonzero]

/-- A legal code with zero reserved fields decodes to its operation. -/
theorem decodeLegal_of_zero (w : ReqWord) (i : Instr) (h : reservedNonzero w = false) :
    decodeLegal w i = .instr i := by
  simp [decodeLegal, h]

/-- A legal code decodes to its operation or to `reservedBits`, never to anything else. -/
theorem decodeLegal_cases (w : ReqWord) (i : Instr) :
    decodeLegal w i = .instr i ∨ decodeLegal w i = .reservedBits := by
  unfold decodeLegal
  split <;> simp

/-- A command's word names that command. -/
theorem commandOf_commandWord (c : Command) : commandOf (commandWord c) = some c := by
  cases c <;> decide

end Sys2Proof.Laws
end

