-- ==== Sys2Proof/Laws/State.lean ====
section
/-! SUPPORT. One lemma per field per update of the state, so that no later proof unfolds a record update. -/

namespace Sys2Proof.Machine

section
variable (s : State) (r : Response) (v : Byte) (w : Word) (st : Status)

@[simp] theorem deliver_acc : (s.deliver r).acc = s.acc := rfl
@[simp] theorem deliver_smp : (s.deliver r).smp = s.smp := rfl
@[simp] theorem deliver_hv : (s.deliver r).hv = s.hv := rfl
@[simp] theorem deliver_inputs : (s.deliver r).inputs = s.inputs := rfl
@[simp] theorem deliver_rsp : (s.deliver r).rsp = some { r with smp := s.smp, hv := s.hv } := rfl

@[simp] theorem raise_acc : (s.raise st).acc = s.acc := rfl
@[simp] theorem raise_smp : (s.raise st).smp = s.smp := rfl
@[simp] theorem raise_hv : (s.raise st).hv = s.hv := rfl
@[simp] theorem raise_inputs : (s.raise st).inputs = s.inputs := rfl
@[simp] theorem raise_rsp :
    (s.raise st).rsp = some { Response.defaults with st := st.code, smp := s.smp, hv := s.hv } := rfl

@[simp] theorem setAcc_acc : (s.setAcc v).acc = v := rfl
@[simp] theorem setAcc_smp : (s.setAcc v).smp = s.smp := rfl
@[simp] theorem setAcc_hv : (s.setAcc v).hv = s.hv := rfl
@[simp] theorem setAcc_inputs : (s.setAcc v).inputs = s.inputs := rfl
@[simp] theorem setAcc_rsp : (s.setAcc v).rsp = s.rsp := rfl

@[simp] theorem holdSample_acc : (s.holdSample w).acc = s.acc := rfl
@[simp] theorem holdSample_smp : (s.holdSample w).smp = w.signExtend 32 := rfl
@[simp] theorem holdSample_hv : (s.holdSample w).hv = 1 := rfl
@[simp] theorem holdSample_inputs : (s.holdSample w).inputs = s.inputs := rfl
@[simp] theorem holdSample_rsp : (s.holdSample w).rsp = s.rsp := rfl

@[simp] theorem resetRegs_acc : s.resetRegs.acc = 0xFF#8 := rfl
@[simp] theorem resetRegs_smp : s.resetRegs.smp = 0#32 := rfl
@[simp] theorem resetRegs_hv : s.resetRegs.hv = 0#1 := rfl
@[simp] theorem resetRegs_inputs : s.resetRegs.inputs = s.inputs := rfl
@[simp] theorem resetRegs_rsp : s.resetRegs.rsp = s.rsp := rfl

/-- The response a state delivers does not depend on the response it held before. -/
theorem deliver_forgets_rsp (o : Option Response) : ({ s with rsp := o } : State).deliver r = s.deliver r := rfl

end

/-- Nothing presented: nothing taken. -/
theorem takeInput_nil (s : State) (h : s.inputs = []) : s.takeInput = none := by
  simp [State.takeInput, h]

/-- The first input is taken, and the rest stay in their order. -/
theorem takeInput_cons (s : State) (x : Input) (rest : List Input) (h : s.inputs = x :: rest) :
    s.takeInput = some (x, { s with inputs := rest }) := by
  simp [State.takeInput, h]

end Sys2Proof.Machine
end

