-- ==== Sys2Proof/Laws/Ops.lean ====
section
/-! SUPPORT. What each shared operation can do, said once. -/

namespace Sys2Proof.Machine

/-! ### The CRC -/

/-- `crc8` of no bytes is the seed. -/
@[simp] theorem crc8_empty : crc8 [] = crcSeed := rfl

/-- A further byte is fed in by `crc8Byte`. -/
theorem crc8_snoc (s : List Byte) (b : Byte) : crc8 (s ++ [b]) = crc8Byte (crc8 s) b := by
  simp [crc8, List.foldl_append]

/-- Two bytes are fed in one after the other. -/
theorem crc8_pair (b0 b1 : Byte) : crc8 [b0, b1] = crc8Byte (crc8Byte crcSeed b0) b1 := rfl

/-- The CRC of a field runs over its two bytes in wire order. -/
theorem crcOfWord_eq (w : Word) : crcOfWord w = crc8 [hiByte w, loByte w] := rfl

/-! ### Words and bytes -/

/-- The bits of a word made of two bytes. -/
theorem getLsbD_wireWord (a b : Byte) (i : Nat) :
    (wireWord a b).getLsbD i = if i < 8 then b.getLsbD i else a.getLsbD (i - 8) := by
  have h := BitVec.getLsbD_append (x := a) (y := b) (i := i)
  exact h

/-- The first byte of a word made of two bytes is the more significant one. -/
@[simp] theorem hiByte_wireWord (a b : Byte) : hiByte (wireWord a b) = a := by
  apply BitVec.eq_of_getLsbD_eq
  intro i hi
  rw [hiByte, BitVec.getLsbD_extractLsb', getLsbD_wireWord]
  simp [hi]

/-- The second byte of a word made of two bytes is the less significant one. -/
@[simp] theorem loByte_wireWord (a b : Byte) : loByte (wireWord a b) = b := by
  apply BitVec.eq_of_getLsbD_eq
  intro i hi
  rw [loByte, BitVec.getLsbD_extractLsb', getLsbD_wireWord]
  simp [hi]

/-- A field is the word of its two bytes in wire order. -/
@[simp] theorem wireWord_hiByte_loByte (w : Word) : wireWord (hiByte w) (loByte w) = w := by
  apply BitVec.eq_of_getLsbD_eq
  intro i hi
  rw [getLsbD_wireWord]
  rcases Nat.lt_or_ge i 8 with h | h
  · simp [h, loByte]
  · have h8 : i - 8 < 8 := by omega
    have hi' : 8 + (i - 8) = i := by omega
    rw [if_neg (by omega), hiByte, BitVec.getLsbD_extractLsb', hi']
    simp [h8]

/-! ### The clamp -/

/-- A value below the bounds becomes the lower one. -/
theorem clamp_below {v lo hi : Int} (h : lo ≤ hi) (hv : v < lo) : clamp v lo hi = lo := by
  rw [clamp, Int.max_eq_right (Int.le_of_lt hv), Int.min_eq_left h]

/-- A value above the bounds becomes the upper one. -/
theorem clamp_above {v lo hi : Int} (hv : hi < v) : clamp v lo hi = hi := by
  unfold clamp; omega

/-- A value between the bounds is kept. -/
theorem clamp_inside {v lo hi : Int} (h1 : lo ≤ v) (h2 : v ≤ hi) : clamp v lo hi = v := by
  unfold clamp; omega

/-- A signed word goes through the argument field unchanged. -/
@[simp] theorem argWord_sval (w : Word) : argWord (sval w) = w := by
  simp [argWord, sval]

/-! ### Flags -/

/-- The five flags of `RSP.fl` by bit (R20). -/
theorem flagByte_bits (f0 f1 f2 sz cl : Bool) :
    (flagByte f0 f1 f2 sz cl).getLsbD 0 = f0 ∧ (flagByte f0 f1 f2 sz cl).getLsbD 1 = f1 ∧
    (flagByte f0 f1 f2 sz cl).getLsbD 2 = f2 ∧ (flagByte f0 f1 f2 sz cl).getLsbD 3 = sz ∧
    (flagByte f0 f1 f2 sz cl).getLsbD 4 = cl ∧ (flagByte f0 f1 f2 sz cl).extractLsb' 5 3 = 0 := by
  cases f0 <;> cases f1 <;> cases f2 <;> cases sz <;> cases cl <;> decide

/-! ### The measurement check -/

/-- `measCheck` answers `ok` exactly for a nonzero CRC byte that matches (R66). -/
theorem measCheck_ok (b0 b1 b2 : Byte) : measCheck b0 b1 b2 = .ok ↔ b2 ≠ 0 ∧ crc8 [b0, b1] = b2 := by
  unfold measCheck noDataCrc
  split <;> rename_i h
  · simp [h]
  · split <;> rename_i h' <;> simp_all

/-- `measCheck` answers `noData` exactly for the sentinel (R66). -/
theorem measCheck_noData (b0 b1 b2 : Byte) : measCheck b0 b1 b2 = .noData ↔ b2 = 0 := by
  unfold measCheck noDataCrc
  split <;> rename_i h
  · simp [h]
  · split <;> rename_i h' <;> simp_all

/-- `measCheck` answers `crcErr` exactly for a nonzero CRC byte that does not match (R66). -/
theorem measCheck_crcErr (b0 b1 b2 : Byte) :
    measCheck b0 b1 b2 = .crcErr ↔ b2 ≠ 0 ∧ crc8 [b0, b1] ≠ b2 := by
  unfold measCheck noDataCrc
  split <;> rename_i h
  · simp [h]
  · split <;> rename_i h' <;> simp_all

/-- `measCheck` has no other answer. -/
theorem measCheck_cases (b0 b1 b2 : Byte) :
    measCheck b0 b1 b2 = .ok ∨ measCheck b0 b1 b2 = .noData ∨ measCheck b0 b1 b2 = .crcErr := by
  unfold measCheck
  split
  · simp
  · split <;> simp

/-! ### Frames -/

/-- The 2-byte frame in the response (R42, R43). -/
theorem cmd2Response_eq (cmd : Word) :
    cmd2Response cmd = { Response.defaults with txlen := 2, tx := #v[hiByte cmd, loByte cmd, 0, 0, 0] } := rfl

/-- The 5-byte frame in the response (R42, R44). -/
theorem cmd5Response_eq (cmd arg : Word) :
    cmd5Response cmd arg = { Response.defaults with
      txlen := 5
      tx := #v[hiByte cmd, loByte cmd, hiByte arg, loByte arg, crc8 [hiByte arg, loByte arg]] } := rfl

/-- The frame of command word 0x3632 is one the encoders build, whichever way the open parameters are set. -/
theorem mixtureResponse_cases (cmd arg : Word) :
    mixtureResponse cmd arg = cmd2Response cmd ∨ mixtureResponse cmd arg = cmd5Response cmd arg ∨
    mixtureResponse cmd arg = o2Response o2MinA cmd arg ∨ mixtureResponse cmd arg = o2Response o2MinB cmd arg := by
  unfold mixtureResponse o2Lower
  cases Config.mixFrameShape <;> cases Config.mixArgKind <;> cases Config.o2BoundOf cmd <;> simp

end Sys2Proof.Machine
end

