-- ==== Sys2Proof/Laws/PerInstr.lean ====
section
/-! SUPPORT. Families of statements about every instruction, one lemma per constructor (LAWS.json). -/

namespace Sys2Proof.Laws

/-- The operation code the opcode table gives a row of format `REQ128` (R37). -/
def tableOp : Instr → Option (BitVec 4)
  | .nop => some 0x0
  | .srst => some 0x1
  | .swap16 _ => some 0x2
  | .crcInit => some 0x3
  | .crcUpd _ => some 0x4
  | .crcRead => some 0x5
  | .crc2 _ => some 0x6
  | .enc2 _ => some 0x7
  | .enc5 _ _ => some 0x8
  | .enc5O2Lo0 _ _ => some 0x9
  | .enc5O2Lo21 _ _ => some 0xA
  | .valMeas _ _ _ => some 0xB
  | .valSet _ _ _ _ _ _ _ _ _ => some 0xC
  | .valDisc _ _ _ => some 0xD
  | .illegalE => some 0xE
  | .illegalF => some 0xF
  | .cmdReset => none
  | .cmdStop => none
  | .cmdReadSettings => none
  | .cmdStartAir => none
  | .cmdStartO2 => none
  | .cmdReadMixture _ => none
  | .cmdChangeO2 _ => none

/-- The encoding of an instruction fits its row's match and mask: a request word with the row's operation code and zero
reserved fields, or a listed sensor command word. -/
def EncodesAsTable.Statement (i : Instr) : Prop :=
  match tableOp i with
  | some op => ∃ w, encode i = .word w ∧ LegalWord op w
  | none => ∃ c arg, encode i = .command (commandWord c) arg

theorem legalWord_packRequest (op : BitVec 4) (a b : Word) (rx0 rx1 rx2 rx3 rx4 rx5 rx6 rx7 rx8 : Byte) :
    LegalWord op (packRequest op a b rx0 rx1 rx2 rx3 rx4 rx5 rx6 rx7 rx8) :=
  ⟨reqOp_packRequest .., reqRsv0_packRequest .., reqRsv1_packRequest ..⟩

theorem EncodesAsTable.nop : Statement .nop := ⟨_, rfl, legalWord_packRequest ..⟩
theorem EncodesAsTable.srst : Statement .srst := ⟨_, rfl, legalWord_packRequest ..⟩
theorem EncodesAsTable.swap16 (a : Word) : Statement (.swap16 a) := ⟨_, rfl, legalWord_packRequest ..⟩
theorem EncodesAsTable.crcInit : Statement .crcInit := ⟨_, rfl, legalWord_packRequest ..⟩
theorem EncodesAsTable.crcUpd (a : Word) : Statement (.crcUpd a) := ⟨_, rfl, legalWord_packRequest ..⟩
theorem EncodesAsTable.crcRead : Statement .crcRead := ⟨_, rfl, legalWord_packRequest ..⟩
theorem EncodesAsTable.crc2 (a : Word) : Statement (.crc2 a) := ⟨_, rfl, legalWord_packRequest ..⟩
theorem EncodesAsTable.enc2 (a : Word) : Statement (.enc2 a) := ⟨_, rfl, legalWord_packRequest ..⟩
theorem EncodesAsTable.enc5 (a b : Word) : Statement (.enc5 a b) := ⟨_, rfl, legalWord_packRequest ..⟩
theorem EncodesAsTable.enc5O2Lo0 (a b : Word) : Statement (.enc5O2Lo0 a b) := ⟨_, rfl, legalWord_packRequest ..⟩
theorem EncodesAsTable.enc5O2Lo21 (a b : Word) : Statement (.enc5O2Lo21 a b) := ⟨_, rfl, legalWord_packRequest ..⟩
theorem EncodesAsTable.valMeas (rx0 rx1 rx2 : Byte) : Statement (.valMeas rx0 rx1 rx2) :=
  ⟨_, rfl, legalWord_packRequest ..⟩
theorem EncodesAsTable.valSet (rx0 rx1 rx2 rx3 rx4 rx5 rx6 rx7 rx8 : Byte) :
    Statement (.valSet rx0 rx1 rx2 rx3 rx4 rx5 rx6 rx7 rx8) := ⟨_, rfl, legalWord_packRequest ..⟩
theorem EncodesAsTable.valDisc (rx0 rx1 rx2 : Byte) : Statement (.valDisc rx0 rx1 rx2) :=
  ⟨_, rfl, legalWord_packRequest ..⟩
theorem EncodesAsTable.illegalE : Statement .illegalE := ⟨_, rfl, legalWord_packRequest ..⟩
theorem EncodesAsTable.illegalF : Statement .illegalF := ⟨_, rfl, legalWord_packRequest ..⟩
theorem EncodesAsTable.cmdReset : Statement .cmdReset := ⟨_, _, rfl⟩
theorem EncodesAsTable.cmdStop : Statement .cmdStop := ⟨_, _, rfl⟩
theorem EncodesAsTable.cmdReadSettings : Statement .cmdReadSettings := ⟨_, _, rfl⟩
theorem EncodesAsTable.cmdStartAir : Statement .cmdStartAir := ⟨_, _, rfl⟩
theorem EncodesAsTable.cmdStartO2 : Statement .cmdStartO2 := ⟨_, _, rfl⟩
theorem EncodesAsTable.cmdReadMixture (arg : Word) : Statement (.cmdReadMixture arg) := ⟨_, _, rfl⟩
theorem EncodesAsTable.cmdChangeO2 (f : Word) : Statement (.cmdChangeO2 f) := ⟨_, _, rfl⟩

end Sys2Proof.Laws
end

