-- ==== Sys2Proof/Tests/Slice0.lean ====
section
/-! SUPPORT. Tests of the model on the spec's own vectors (95_test_vectors.md, cited by section), the smoke test of
WellFormed, and for every statement with hypotheses a concrete case that meets them. The vectors are "derived from the
rules ... not from a run of any hardware", so none of this is a measurement. -/

namespace Sys2Proof.Tests

open Sys2Proof.Machine Sys2Proof.Stated

/-- The state with a held sample that the vectors start from. -/
def held : State := { acc := 0x5A, smp := 0xFFFFA0AA, hv := 1, inputs := [], rsp := none }

/-- The state in which one request waits. -/
def presenting (s : State) (q : Request) : State := { s with inputs := [.present q] }

/-- The state after one request. -/
def after (s : State) (q : Request) : Option State :=
  match step (presenting s q) with
  | .next t => some t
  | .fault _ => none
  | .refused _ => none

/-- `st`, `r0`, `fl`, `txlen`, `tx` of the response to one request. -/
def answer (s : State) (q : Request) : Option (BitVec 4 × Word × BitVec 8 × BitVec 3 × List Byte) :=
  (after s q).bind fun t => t.rsp.map fun r => (r.st, r.r0, r.fl, r.txlen, r.tx.toList)

/-- `ACC`, `SMP`, `HV` after one request. -/
def regs (s : State) (q : Request) : Option (Byte × Sample × BitVec 1) :=
  (after s q).map fun t => (t.acc, t.smp, t.hv)

/-! ### WellFormed: the one check, with an ill-formed term -/

theorem test_crcUpd_above_ff_is_ill_formed : (Instr.crcUpd 0x0100).wellFormed = false := by decide
theorem test_crcUpd_ff_is_well_formed : (Instr.crcUpd 0x00FF).wellFormed = true := by decide

/-! ### Decoding: words written out from the encoding, one per constructor -/

theorem test_decode_nop : decode (.word 0x00000000000000000000000000000000) = .instr .nop := by decide
theorem test_decode_srst : decode (.word 0x00000000000000000000000000000001) = .instr .srst := by decide
theorem test_decode_swap16 : decode (.word 0x00000000000000000000000036610002) = .instr (.swap16 0x3661) := by decide
theorem test_decode_crcInit : decode (.word 0x00000000000000000000000000000003) = .instr .crcInit := by decide
theorem test_decode_crcUpd : decode (.word 0x00000000000000000000000012360004) = .instr (.crcUpd 0x1236) := by decide
theorem test_decode_crcRead : decode (.word 0x00000000000000000000000000000005) = .instr .crcRead := by decide
theorem test_decode_crc2 : decode (.word 0x000000000000000000000000BEEF0006) = .instr (.crc2 0xBEEF) := by decide
theorem test_decode_enc2 : decode (.word 0x00000000000000000000123436080007) = .instr (.enc2 0x3608) := by decide
theorem test_decode_enc5 :
    decode (.word 0x00000000000000000000360836610008) = .instr (.enc5 0x3661 0x3608) := by decide
theorem test_decode_enc5O2Lo0 :
    decode (.word 0x000000000000000000008000E17D0009) = .instr (.enc5O2Lo0 0xE17D 0x8000) := by decide
theorem test_decode_enc5O2Lo21 :
    decode (.word 0x0000000000000000000000323632000A) = .instr (.enc5O2Lo21 0x3632 50) := by decide
theorem test_decode_valMeas :
    decode (.word 0x00EEEEEEEEEEEE59AAA000000000000B) = .instr (.valMeas 0xA0 0xAA 0x59) := by decide
theorem test_decode_valSet :
    decode (.word 0x00F148017E00A0A6AA0000000000000C)
      = .instr (.valSet 0x00 0xAA 0xA6 0xA0 0x00 0x7E 0x01 0x48 0xF1) := by decide
theorem test_decode_valDisc :
    decode (.word 0x000000000000008FFF7F00000000000D) = .instr (.valDisc 0x7F 0xFF 0x8F) := by decide
theorem test_decode_illegalE : decode (.word 0x0000000000000000000000000000000E) = .instr .illegalE := by decide
theorem test_decode_illegalF : decode (.word 0x0000000000000000000000000000FFFF) = .instr .illegalF := by decide
theorem test_decode_cmdReset : decodeTableWord 16 0x0006 = some .cmdReset := by decide
theorem test_decode_cmdStop : decodeTableWord 16 0x3FF9 = some .cmdStop := by decide
theorem test_decode_cmdReadSettings : decodeTableWord 16 0x3661 = some .cmdReadSettings := by decide
theorem test_decode_cmdStartAir : decodeTableWord 16 0x3608 = some .cmdStartAir := by decide
theorem test_decode_cmdStartO2 : decodeTableWord 16 0x3603 = some .cmdStartO2 := by decide
theorem test_decode_cmdReadMixture : decodeTableWord 16 0x3632 = some (.cmdReadMixture 0) := by decide
theorem test_decode_cmdChangeO2 : decodeTableWord 16 0xE17D = some (.cmdChangeO2 0) := by decide
theorem test_decode_rsv0 : decode (.word 0x00000000000000000000000000000010) = .reservedBits := by decide
theorem test_decode_rsv1 : decode (.word 0x80000000000000000000000000000001) = .reservedBits := by decide
theorem test_table_word_of_a_short_row : decodeTableWord 8 0xE = some .illegalE := by decide
theorem test_table_word_reserved : decodeTableWord 128 0x10 = none := by decide

/-! ### The CRC (95_test_vectors.md section 2.2) -/

theorem test_crc_36_08 : crc8 [0x36, 0x08] = 0xD0 := by decide +kernel
theorem test_crc_nine_bytes : crc8 [1, 2, 3, 4, 5, 6, 7, 8, 9] = 0x8C := by decide +kernel

/-! ### Codec operations (section 2.3) -/

theorem test_swap16_00ff : answer .reset (.word 0x00000000000000000000000000FF0002)
    = some (0, 0xFF00, 0, 0, [0, 0, 0, 0, 0]) := by decide
theorem test_swap16_vector : answer .reset (.word 0x00000000000000000000000036610002)
    = some (0, 0x6136, 0, 0, [0, 0, 0, 0, 0]) := by decide
theorem test_crcInit : regs held (.word 0x00000000000000000000000000000003)
    = some (0xFF, 0xFFFFA0AA, 1) := by decide
theorem test_crcInit_answer : answer held (.word 0x00000000000000000000000000000003)
    = some (0, 0x00FF, 0, 0, [0, 0, 0, 0, 0]) := by decide
theorem test_crcUpd_ignores_high_byte : answer .reset (.word 0x00000000000000000000000012360004)
    = some (0, 0x00CF, 0, 0, [0, 0, 0, 0, 0]) := by decide +kernel
theorem test_crcUpd_second_byte : regs { State.reset with acc := 0xCF } (.word 0x00000000000000000000000000080004)
    = some (0xD0, 0, 0) := by decide +kernel
theorem test_crcRead : answer { State.reset with acc := 0x0A } (.word 0x00000000000000000000000000000005)
    = some (0, 0x000A, 0, 0, [0, 0, 0, 0, 0]) := by decide
theorem test_crc2 : answer held (.word 0x00000000000000000000000036080006)
    = some (0, 0x00D0, 0, 0, [0, 0, 0, 0, 0]) := by decide +kernel
theorem test_crc2_leaves_acc : regs held (.word 0x00000000000000000000000036080006)
    = some (0x5A, 0xFFFFA0AA, 1) := by decide

/-! ### Encoder operations (section 2.4) -/

theorem test_enc2_ignores_b : answer .reset (.word 0x00000000000000000000123436080007)
    = some (0, 0, 0, 2, [0x36, 0x08, 0, 0, 0]) := by decide
theorem test_enc5_settings_read : answer .reset (.word 0x00000000000000000000360836610008)
    = some (0, 0, 0, 5, [0x36, 0x61, 0x36, 0x08, 0xD0]) := by decide +kernel
theorem test_enc5_does_not_clamp : answer .reset (.word 0x000000000000000000000096E17D0008)
    = some (0, 0, 0, 5, [0xE1, 0x7D, 0x00, 0x96, 0x1E]) := by decide +kernel
theorem test_enc5O2Lo0_most_negative : answer .reset (.word 0x000000000000000000008000E17D0009)
    = some (0, 0, 0x10, 5, [0xE1, 0x7D, 0x00, 0x00, 0x81]) := by decide +kernel
theorem test_enc5O2Lo0_at_100 : answer .reset (.word 0x000000000000000000000064E17D0009)
    = some (0, 0, 0, 5, [0xE1, 0x7D, 0x00, 0x64, 0xFE]) := by decide +kernel
theorem test_enc5O2Lo21_at_20 : answer .reset (.word 0x000000000000000000000014E17D000A)
    = some (0, 0, 0x10, 5, [0xE1, 0x7D, 0x00, 0x15, 0x37]) := by decide +kernel
theorem test_enc5O2Lo21_at_101 : answer .reset (.word 0x000000000000000000000065E17D000A)
    = some (0, 0, 0x10, 5, [0xE1, 0x7D, 0x00, 0x64, 0xFE]) := by decide +kernel

/-! ### Validator operations (sections 2.5 and 2.6) -/

theorem test_valMeas_most_negative : regs .reset (.word 0x00000000000000A2008000000000000B)
    = some (0xFF, 0xFFFF8000, 1) := by decide +kernel
theorem test_valMeas_sentinel_wins : answer held (.word 0x0000000000000000AC0000000000000B)
    = some (2, 0, 0, 0, [0, 0, 0, 0, 0]) := by decide +kernel
theorem test_valDisc_keeps_the_sample : regs held (.word 0x000000000000008FFF7F00000000000D)
    = some (0x5A, 0xFFFFA0AA, 1) := by decide +kernel
theorem test_valDisc_bad_crc : answer held (.word 0x0000000000000059ABA000000000000D)
    = some (1, 0, 0, 0, [0, 0, 0, 0, 0]) := by decide +kernel
theorem test_valSet_offset_crc_wrong : answer held (.word 0x00F148017F00A0A6AA0000000000000C)
    = some (1, 0x00AA, 0x05, 0, [0, 0, 0, 0, 0]) := by decide +kernel
theorem test_valSet_zero_fields : answer .reset (.word 0x0081000081000081000000000000000C)
    = some (0, 0, 0x0F, 0, [0, 0, 0, 0, 0]) := by decide +kernel

/-! ### Control and refused requests (section 2.7) -/

theorem test_nop_ignores_operands : answer held (.word 0x00000000000000000055000012340000)
    = some (0, 0, 0, 0, [0, 0, 0, 0, 0]) := by decide
theorem test_srst : regs held (.word 0x00000000000000000000000000000001) = some (0xFF, 0, 0) := by decide
theorem test_illegalE : answer held (.word 0x0000000000000000000000000000000E)
    = some (3, 0, 0, 0, [0, 0, 0, 0, 0]) := by decide
theorem test_illegalF_over_reserved : answer held (.word 0x0000000000000000000000000000FFFF)
    = some (3, 0, 0, 0, [0, 0, 0, 0, 0]) := by decide
theorem test_reserved_over_no_data : answer held (.word 0x0000000000000000341200000000002B)
    = some (4, 0, 0, 0, [0, 0, 0, 0, 0]) := by decide
theorem test_reserved_srst_resets_nothing : regs held (.word 0x80000000000000000000000000000001)
    = some (0x5A, 0xFFFFA0AA, 1) := by decide

/-! ### Sensor command words and pseudo-instructions (30_encoding.md R52) -/

theorem test_cmdReset : answer held (.command 0x0006 0) = some (0, 0, 0, 2, [0x00, 0x06, 0, 0, 0]) := by decide
theorem test_cmdStop : answer held (.command 0x3FF9 0) = some (0, 0, 0, 2, [0x3F, 0xF9, 0, 0, 0]) := by decide
theorem test_cmdReadSettings : answer held (.command 0x3661 0)
    = some (0, 0, 0, 5, [0x36, 0x61, 0x36, 0x08, 0xD0]) := by decide +kernel
theorem test_cmdStartAir : answer held (.command 0x3608 0) = some (0, 0, 0, 2, [0x36, 0x08, 0, 0, 0]) := by decide
theorem test_cmdStartO2 : answer held (.command 0x3603 0) = some (0, 0, 0, 2, [0x36, 0x03, 0, 0, 0]) := by decide
theorem test_cmdReadMixture_keeps_registers : regs held (.command 0x3632 0) = some (0x5A, 0xFFFFA0AA, 1) := by decide
theorem test_cmdChangeO2_keeps_registers : regs held (.command 0xE17D 50) = some (0x5A, 0xFFFFA0AA, 1) := by decide
theorem test_assemble_cmdReset : assemble .cmdReset = some (.word 0x00000000000000000000000000060007) := by decide
theorem test_assemble_o2_minus_one :
    assemble (.cmdSetO2Lo21 (-1)) = some (.word 0x00000000000000000000FFFFE17D000A) := by decide
theorem test_first_step_runs_the_fetch_word :
    step (State.reset.withFetchWord 16 0x3FF9) = exec .cmdStop State.reset := by rfl

/-! ### The hypotheses of the statements are met -/

theorem witness_ResetEventSetsRegistersAndAnswersNothing :
    ({ held with inputs := [.reset] } : State).inputs = .reset :: [] := by decide

/-- The decoding clause of every statement about one operation (Nop to ValSet) has a word that meets it; ignored fields are
not zero where the vectors have such a word. -/
theorem witness_LegalWord_of_each_operation :
    LegalWord 0x0 0x00000000000000000055000012340000 ∧ LegalWord 0x1 0x1 ∧
    LegalWord 0x2 0x00000000000000000000000036610002 ∧ LegalWord 0x3 0x3 ∧
    LegalWord 0x4 0x00000000000000000000000012360004 ∧ LegalWord 0x5 0x5 ∧
    LegalWord 0x6 0x000000000000000000000000BEEF0006 ∧
    LegalWord 0x7 0x00000000000000000000123436080007 ∧
    LegalWord 0x8 0x00000000000000000000360836610008 ∧
    LegalWord 0x9 0x000000000000000000008000E17D0009 ∧
    LegalWord 0xA 0x0000000000000000000000323632000A ∧
    LegalWord 0xB 0x00EEEEEEEEEEEE59AAA000000000000B ∧
    LegalWord 0xC 0x00F148017E00A0A6AA0000000000000C ∧
    LegalWord 0xD 0x000000000000008FFF7F00000000000D := by
  unfold LegalWord
  decide

theorem witness_SwapReversesTheBytes :
    (0xABAB : BitVec 16).extractLsb' 0 8 = (0xABAB : BitVec 16).extractLsb' 8 8 := by decide

theorem witness_CrcUpdFeedsOneByte :
    (0x1236 : BitVec 16).extractLsb' 0 8 = (0x0036 : BitVec 16).extractLsb' 0 8 ∧
    (0x005A : BitVec 16).extractLsb' 0 8 = held.acc := by decide

theorem witness_ValMeasHoldsOnlyGoodSamples :
    ((0x01 : Byte) ≠ 0x00 ∧ crc8 [0x00, 0x00] ≠ 0x01) ∧ ((0x81 : Byte) ≠ 0x00 ∧ crc8 [0x00, 0x00] = 0x81) := by
  decide +kernel

theorem witness_ValDiscReportsAndNeverStores :
    ((0xFF : Byte) ≠ 0x00 ∧ crc8 [0xFF, 0xFF] ≠ 0xFF) ∧ ((0xAC : Byte) ≠ 0x00 ∧ crc8 [0xFF, 0xFF] = 0xAC) := by
  decide +kernel

theorem witness_IllegalCodesRaiseIllegalOp :
    (0x000000000000000000000000FFFFFFFE : BitVec 128).extractLsb' 0 4 = 0xE ∧
    (0xFF00000000000000000000000000FFFF : BitVec 128).extractLsb' 0 4 = 0xF := by decide

theorem witness_ListedCommandWordsDecode :
    (0x0007 : BitVec 16) ∉ [(0x0006 : BitVec 16), 0x3FF9, 0x3661, 0x3608, 0x3603, 0x3632, 0xE17D] := by decide

theorem witness_OperationCodeSelectsTheOperation :
    (0x00F148017E00A0A6AA0000000000000C : BitVec 128).extractLsb' 0 4 = 0xC ∧
    (0x00F148017E00A0A6AA0000000000000C : BitVec 128).extractLsb' 4 12 = 0 ∧
    (0x00F148017E00A0A6AA0000000000000C : BitVec 128).extractLsb' 120 8 = 0 ∧
    (0x00F148017E00A0A6AA0000000000000C : BitVec 128).extractLsb' (48 + 8 * 8) 8 = 0xF1 := by decide

theorem witness_ReservedFieldsMustBeZero :
    ((0x10 : BitVec 128).extractLsb' 0 4 ≠ 0xE ∧ (0x10 : BitVec 128).extractLsb' 0 4 ≠ 0xF ∧
      (0x10 : BitVec 128).extractLsb' 4 12 ≠ 0 ∧ Presents (presenting held (.word 0x10)) (.word 0x10) []) ∧
    ((0x80000000000000000000000000000001 : BitVec 128).extractLsb' 4 12 = 0 ∧
      (0x80000000000000000000000000000001 : BitVec 128).extractLsb' 120 8 ≠ 0) ∧
    ((0x0D : BitVec 128).extractLsb' 0 4 ≠ 0xE ∧ (0x0D : BitVec 128).extractLsb' 0 4 ≠ 0xF ∧
      (0x0D : BitVec 128).extractLsb' 4 12 = 0 ∧ (0x0D : BitVec 128).extractLsb' 120 8 = 0) := by
  unfold Presents
  decide

theorem witness_AssemblyIsExactOrAnError :
    assemble (.swap16 0xFFFF) = some (.word 0x000000000000000000000000FFFF0002) ∧
    assemble (.swap16 0x10000) = none ∧ assemble (.swap16 (-1)) = none ∧
    assemble (.crcUpd 0xFF) = some (.word 0x00000000000000000000000000FF0004) ∧ assemble (.crcUpd 0x100) = none ∧
    assemble (.crc2 0) = some (.word 0x6) ∧ assemble (.crc2 0x10000) = none ∧
    assemble (.enc2 0xFFFF) = some (.word 0x000000000000000000000000FFFF0007) ∧ assemble (.enc2 (-1)) = none ∧
    assemble (.enc5 0 0xFFFF) = some (.word 0x00000000000000000000FFFF00000008) ∧
    assemble (.enc5 0 (-1)) = none ∧ assemble (.enc5 0x10000 0) = none ∧
    assemble (.enc5O2Lo0 0xE17D (-32768)) = some (.word 0x000000000000000000008000E17D0009) ∧
    assemble (.enc5O2Lo0 0xE17D 32768) = none ∧ assemble (.enc5O2Lo0 (-1) 0) = none ∧
    assemble (.enc5O2Lo21 0xFFFF 32767) = some (.word 0x000000000000000000007FFFFFFF000A) ∧
    assemble (.enc5O2Lo21 0xE17D (-32769)) = none ∧
    assemble (.valMeas 0 0 0xFF) = some (.word 0x00000000000000FF000000000000000B) ∧
    assemble (.valMeas 0 256 0) = none ∧
    assemble (.valDisc 0xFF 0 0) = some (.word 0x000000000000000000FF00000000000D) ∧
    assemble (.valDisc 0 0 (-1)) = none ∧
    assemble (.valSet 0 0 0 0 0 0 0 0 0xFF) = some (.word 0x00FF000000000000000000000000000C) ∧
    assemble (.valSet 0 0 0 0 0 0 0 0 256) = none := by decide

theorem witness_UnusedFieldsAssembleAsZero :
    assemble (.crcUpd 0xFF) = some (.word 0x00000000000000000000000000FF0004) ∧
    (0x00000000000000000000000000FF0004 : BitVec 128).extractLsb' 0 4 = 0x4 ∧
    assemble .nop = some (.word 0) ∧
    (0x0 : BitVec 4) ∉ [(0x2 : BitVec 4), 0x4, 0x6, 0x7, 0x8, 0x9, 0xA] ∧
    (0x4 : BitVec 4) ∉ [(0x8 : BitVec 4), 0x9, 0xA] ∧ (0x4 : BitVec 4) ∉ [(0xB : BitVec 4), 0xC, 0xD] ∧
    (0x4 : BitVec 4) ≠ 0xC := by decide

theorem witness_PseudoInstructionsExpandToOneRequest : (-32768 : Int) ≤ -1 ∧ (-1 : Int) ≤ 32767 := by decide

theorem witness_StepRunsTheDecodedInstruction :
    Presents (presenting held (.command 0x3632 7)) (.command 0x3632 7) [] ∧
    decode (.command 0x3632 7) = .instr (.cmdReadMixture 7) := by
  unfold Presents
  decide

theorem witness_StepsThatRunNoInstruction :
    held.inputs = [] ∧ Presents (presenting held (.command 0x1234 7)) (.command 0x1234 7) [] ∧
    decode (.command 0x1234 7) = .unlistedCommand 0x1234 := by
  unfold Presents
  decide

theorem witness_EveryRequestCompletesWithOneResponse :
    Presents (presenting held (.word 0xFFFF)) (.word 0xFFFF) [] := rfl

theorem witness_StatusFollowsThePriority :
    Presents (presenting held (.word 0x0100000000000081000000000000000B)) (.word 0x0100000000000081000000000000000B) [] ∧
    statusOf 0x0100000000000081000000000000000B = 4 ∧ statusOf 0x0000000000000081000000000000000B = 0 ∧
    statusOf 0x0081000081000081000000000000000C = 0 ∧ statusOf 0x0C = 1 ∧
    statusOf 0x0000000000000059ABA000000000000D = 1 ∧ statusOf 0x000000000000000034120000 = 0 ∧
    statusOf 0x0000000000000000341200000000000D = 2 ∧ statusOf 0x8000000000000000000000000000000E = 3 := by
  unfold Presents
  decide +kernel

theorem witness_RaisedStatusChangesNoRegister :
    Presents (presenting held (.word 0x1C)) (.word 0x1C) [] ∧ statusOf 0x1C = 4 ∧
    statusOf 0x0000000000000000AC0000000000000B = 2 ∧
    (0x0000000000000000AC0000000000000B : BitVec 128).extractLsb' 0 4 ≠ 0xC := by
  unfold Presents
  decide +kernel

theorem witness_FailedRequestLeavesNoTrace :
    Presents (presenting held (.word 0x0C)) (.word 0x0C) [] ∧ statusOf 0x0C ≠ 0 := by
  unfold Presents
  decide +kernel

theorem witness_NoHiddenState :
    held.acc = ({ held with rsp := some (blank held) } : State).acc ∧
    held.smp = ({ held with rsp := some (blank held) } : State).smp ∧
    held.hv = ({ held with rsp := some (blank held) } : State).hv ∧
    held.inputs = ({ held with rsp := some (blank held) } : State).inputs ∧
    held ≠ { held with rsp := some (blank held) } := by decide

theorem witness_RequestsAreServedInOrder :
    ({ held with inputs := [.present (.word 3), .present (.word 5), .reset] } : State).inputs
      = [(3 : BitVec 128), 5].map (fun w => Input.present (.word w)) ++ [.reset] ∧
    ({ held with inputs := [.present (.word 3), .present (.word 5)] } : State).inputs
      = [(3 : BitVec 128), 5].map (fun w => Input.present (.word w)) := by decide

/-- One step of `CRC_INIT` changes `ACC`. -/
theorem witness_AccChangesOnlyByItsWriters :
    ∃ t, step (presenting held (.word 0x3)) = .next t ∧ t.acc ≠ held.acc := ⟨_, rfl, by decide⟩

theorem witness_AccIsReadOnlyByTheStream : (∀ a, Instr.crc2 0 ≠ .crcUpd a) ∧ Instr.crc2 0 ≠ .crcRead := by
  constructor
  · intro a h
    cases h
  · decide

/-- One step of `SRST` changes `SMP` and `HV`. -/
theorem witness_SampleChangesOnlyByItsWriters :
    ∃ t, step (presenting held (.word 0x1)) = .next t ∧ (t.smp ≠ held.smp ∨ t.hv ≠ held.hv) :=
  ⟨_, rfl, by decide⟩

theorem witness_RepeatingAnOperationChangesNothing : ∀ a, Instr.valMeas 0 0 0x81 ≠ .crcUpd a := by
  intro a h
  cases h

theorem witness_StepKeepsConsistent :
    Consistent (presenting .reset (.word 0x1)) ∧ ∃ t, step (presenting .reset (.word 0x1)) = .next t :=
  ⟨⟨fun _ => rfl, by decide, fun r h => by cases h⟩, _, rfl⟩

/-- `CRC_UPD` with `B` nonzero, `NOP` with `A = 0x1234`, and a refused `CRC_UPD` (rsv0 nonzero): a legal stream of one
byte. -/
def streamRequests : List Request :=
  [.word 0x00000000000000000000FFFF12360004, .word 0x00000000000000000055000012340000,
    .word 0x00000000000000000000000000360104]

theorem witness_CrcStreamComputesTheCrc :
    (∀ q ∈ streamRequests, Presentable q ∧ requestStreamSafe q = true) ∧
    streamRequests.filterMap requestByte = [0x36] ∧ State.reset.acc = 0xFF ∧
    decode (.word 0xFF0000003) = .instr .crcInit ∧ decode (.word 0x1) = .instr .srst ∧
    ({ held with inputs := .present (.word 0x3) :: streamRequests.map Input.present } : State).inputs
      = .present (.word 0x3) :: streamRequests.map Input.present ++ [] := by
  refine ⟨?_, by decide, by decide, by decide, by decide, by decide⟩
  intro q hq
  simp only [streamRequests, List.mem_cons, List.not_mem_nil, or_false] at hq
  rcases hq with rfl | rfl | rfl <;> exact ⟨fun cmd h => (by cases h), by decide⟩

/-- `VAL_MEAS` with `RX[3..8] = 0xEE`, and a refused `SRST` (rsv1 = 0x80): the sample stays held. -/
theorem witness_HeldSampleIsTheLastAccepted :
    (∀ q ∈ [Request.word 0x00EEEEEEEEEEEE59AAA000000000000B, .word 0x80000000000000000000000000000001],
      Presentable q) ∧
    [Request.word 0x00EEEEEEEEEEEE59AAA000000000000B, .word 0x80000000000000000000000000000001].foldl
      sampleAfterRequest (0, 0) = (0xFFFFA0AA, 1) := by
  refine ⟨?_, by decide +kernel⟩
  intro q hq
  simp only [List.mem_cons, List.not_mem_nil, or_false] at hq
  rcases hq with rfl | rfl <;> exact fun cmd h => by cases h

theorem witness_SentinelDiscardsZeroCrcSamples : crc8 [0x00, 0xAC] = 0x00 := by decide +kernel

theorem witness_EncodedFieldsValidate : crc8 [0x36, 0x08] ≠ 0x00 := by decide +kernel

theorem witness_ClampedFractionKeepsItsValue :
    ((21 : Int) ≤ 100) ∧ ((21 : Int) ≤ 21 ∧ (21 : Int) ≤ 100) ∧ ((20 : Int) < 21) ∧ ((100 : Int) < 101) := by decide

theorem witness_EncodersAcceptEveryCommandWord :
    Instr.enc5 0x0000 0x3608 ∈
      [Instr.enc2 0x0000, .enc5 0x0000 0x3608, .enc5O2Lo0 0x0000 0x3608, .enc5O2Lo21 0x0000 0x3608] := by decide

theorem witness_TableShapeDutyGivesTableFrames :
    keepsTableShape (.enc2 0x0006) = true ∧ keepsTableShape (.enc2 0x3603) = true ∧
    keepsTableShape (.enc5 0x3661 0x3608) = true ∧ keepsTableShape (.enc5O2Lo21 0xE17D 10) = true ∧
    (keepsTableShape (.enc2 0x3632) = true ∨ keepsTableShape (.enc5 0x3632 0) = true) ∧
    keepsTableShape (.enc2 0xE17D) = false ∧ keepsTableShape (.enc5 0x3608 0) = false := by
  refine ⟨by decide, by decide, by decide, by decide, ?_, by decide, by decide⟩
  have e : tableShape 0x3632 = some Config.mixFrameShape := rfl
  simp only [keepsTableShape, e]
  cases Config.mixFrameShape <;> decide

/-- `ENC5_O2_LO0 0xE17D, 10` or `ENC5_O2_LO21 0xE17D, 10` (95_test_vectors.md P4, steps 2 and 3) keeps the duty, whichever
bound is chosen; `ENC5 0xE17D` breaks it. -/
theorem witness_CommandDutyGivesTheChosenBound :
    (∃ w ∈ [(0xAE17D0009 : BitVec 128), 0xAE17D000A], Presents (presenting held (.word w)) (.word w) [] ∧
      (Presentation.mk (.word w) none).keepsCommandDuty = true ∧
      ∃ i ∈ [Instr.enc5O2Lo0 0xE17D 10, .enc5O2Lo21 0xE17D 10], decode (.word w) = .instr i) ∧
    isO2Command 0xE17D = true ∧ isO2Command 0x3608 = false ∧
    (Presentation.mk (.word 0xAE17D0008) none).keepsCommandDuty = false := by
  have h0 : decode (.word 0xAE17D0009) = .instr (.enc5O2Lo0 0xE17D 10) := by decide
  have h1 : decode (.word 0xAE17D000A) = .instr (.enc5O2Lo21 0xE17D 10) := by decide
  refine ⟨?_, by decide, by decide, by decide⟩
  cases h : Config.o2BoundOf 0xE17D
  · exact ⟨_, .head _, rfl, by simp only [Presentation.keepsCommandDuty, h0, keepsO2Bound, h]; decide, _, .head _, h0⟩
  · exact ⟨_, .tail _ (.head _), rfl, by simp only [Presentation.keepsCommandDuty, h1, keepsO2Bound, h]; decide, _,
      .tail _ (.head _), h1⟩

/-- Program P3 of 95_test_vectors.md, steps 1 and 3, and P4, step 1, with the replies behind them. -/
def dutifulPresentations : List Presentation :=
  [⟨.word 0x00000000000000B0010000000000000D, some ⟨.measurement, .inFull [0x00, 0x01, 0xB0], true⟩⟩,
    ⟨.word 0x0000000000000059AAA000000000000B, some ⟨.measurement, .inFull [0xA0, 0xAA, 0x59], false⟩⟩,
    ⟨.word 0x00F148017E00A0A6AA0000000000000C,
      some ⟨.settings, .inFull [0x00, 0xAA, 0xA6, 0xA0, 0x00, 0x7E, 0x01, 0x48, 0xF1], false⟩⟩]

theorem witness_ReplyDutiesGiveResultsOfWholeReplies :
    (∀ p ∈ dutifulPresentations, Presents (presenting held p.request) p.request [] ∧ p.keepsReplyDuties = true) ∧
    dutifulPresentations.map (fun p => decode p.request) = [.instr (.valDisc 0x00 0x01 0xB0),
      .instr (.valMeas 0xA0 0xAA 0x59), .instr (.valSet 0x00 0xAA 0xA6 0xA0 0x00 0x7E 0x01 0x48 0xF1)] :=
  ⟨fun p h => ⟨rfl, (show ∀ p ∈ dutifulPresentations, p.keepsReplyDuties = true by decide) p h⟩, by decide⟩

theorem witness_ReplyDutiesMakeTheHeldSampleAMeasurement :
    (∀ p ∈ dutifulPresentations, Presentable p.request ∧ p.keepsReplyDuties = true) ∧
    dutifulPresentations.foldl sampleAfterReply (0, 0) = (0xFFFFA0AA, 1) := by
  refine ⟨fun p h => ⟨?_, (show ∀ p ∈ dutifulPresentations, p.keepsReplyDuties = true by decide) p h⟩,
    by decide +kernel⟩
  simp only [dutifulPresentations, List.mem_cons, List.not_mem_nil, or_false] at h
  rcases h with rfl | rfl | rfl <;> exact fun cmd h => by cases h

/-- Each duty on a reply is broken alone: the frame to discard handed to `VAL_MEAS`, a short read, a settings reply as a
measurement, and no reply at all. -/
theorem test_reply_duties_broken :
    keepsDiscard (some ⟨.measurement, .inFull [0x00, 0x01, 0xB0], true⟩) (.valMeas 0x00 0x01 0xB0) = false ∧
    keepsReadInFull (some ⟨.measurement, .packetError, false⟩) (.valDisc 0x00 0x01 0xB0) = false ∧
    keepsReplyKind (some ⟨.settings, .inFull [0x00, 0x01, 0xB0], false⟩) (.valMeas 0x00 0x01 0xB0) = false ∧
    keepsReadInFull none (.valMeas 0x00 0x01 0xB0) = false := by decide

end Sys2Proof.Tests
end

section
/-! Settles O19 and O20: what the two command words with open parameters answer. The common fact is that a clamped
fraction is what the O2 answer of the rules says (R60, R63, R64), for every lower bound up to 100. -/

namespace Sys2Proof.Proofs

open Sys2Proof.Machine Sys2Proof.Stated

/-- A step that only delivers a response writes no register, and the response shows the held sample. -/
theorem next_deliver_eq_answers (s : State) (r : Response) :
    .next (s.deliver r) = answers s { r with smp := s.smp, hv := s.hv } := rfl

/-! ### The O2 answer, for any lower bound -/

/-- The clamped fraction as a word is the argument the rules give (R60). -/
theorem argWord_clamp_eq_o2Arg (lo b : Word) (hlo : lo.toInt ≤ o2Max) :
    argWord (clamp (sval b) lo.toInt o2Max) = o2Arg lo b := by
  unfold o2Arg
  split_ifs with hbelow habove
  · rw [clamp_below (v := sval b) hlo hbelow]
    exact argWord_sval lo
  · rw [clamp_above (v := sval b) (hi := o2Max) habove]
    rfl
  · rw [clamp_inside (v := sval b) (hi := o2Max) (not_lt.mp hbelow) (not_lt.mp habove), argWord_sval]

/-- The clamp changes a value exactly when it lies outside the bounds (R60). -/
theorem clamp_ne_self_iff {v lo hi : Int} (h : lo ≤ hi) : clamp v lo hi ≠ v ↔ v < lo ∨ hi < v := by
  unfold clamp
  omega

/-- The flags of an O2 encoder are `CLAMPED`, bit 4, or none (R20, R63). -/
theorem clampFlags_decide (p : Prop) [Decidable p] : clampFlags (decide p) = if p then 0x10 else 0x00 := by
  by_cases h : p
  · rw [decide_eq_true h, if_pos h]
    rfl
  · rw [decide_eq_false h, if_neg h]
    rfl

/-- The response an O2 encoder with lower bound `lo` delivers is the O2 answer of the rules (R63, R64). -/
theorem o2Response_delivered (s : State) (lo cmd b : Word) (hlo : lo.toInt ≤ o2Max) :
    { o2Response lo.toInt cmd b with smp := s.smp, hv := s.hv } = o2Answer s lo cmd b := by
  have hflags : (clamp (sval b) lo.toInt o2Max ≠ sval b) = (b.toInt < lo.toInt ∨ 100 < b.toInt) :=
    propext (clamp_ne_self_iff hlo)
  simp only [o2Response, argWord_clamp_eq_o2Arg lo b hlo, cmd5Response_eq, clampFlags_decide, hflags]
  rfl

/-! ### The open bound -/

/-- The model's lower bound of a command word is the open bound of the rules, whichever it is (R5). -/
theorem o2Lower_eq_openBound (cmd : Word) : o2Lower cmd = (openBound cmd).toInt := by
  unfold o2Lower openBound
  cases Config.o2BoundOf cmd <;> rfl

/-- Either bound lies below the upper one. -/
theorem openBound_le_o2Max (cmd : Word) : (openBound cmd).toInt ≤ o2Max := by
  unfold openBound
  cases Config.o2BoundOf cmd <;> decide

/-- A fraction clamped by the open bound of its command word is answered as the rules say. -/
theorem o2Response_o2Lower_delivered (s : State) (cmd b : Word) :
    { o2Response (o2Lower cmd) cmd b with smp := s.smp, hv := s.hv } = o2Answer s (openBound cmd) cmd b := by
  rw [o2Lower_eq_openBound]
  exact o2Response_delivered s (openBound cmd) cmd b (openBound_le_o2Max cmd)

/-! ### The two command words -/

/-- `change-O2-fraction` delivers the O2 response of 0xE17D. -/
theorem exec_cmdChangeO2 (f : Word) (s : State) :
    exec (.cmdChangeO2 f) s = .next (s.deliver (o2Response (o2Lower 0xE17D) 0xE17D f)) := rfl

/-- Command word 0x3632 delivers the mixture response. -/
theorem exec_cmdReadMixture (arg : Word) (s : State) :
    exec (.cmdReadMixture arg) s = .next (s.deliver (mixtureResponse 0x3632 arg)) := rfl

/-- Settles O19. -/
theorem changeO2ClampsByTheOpenBound : Obligations.ChangeO2ClampsByTheOpenBound := by
  intro f s
  rw [exec_cmdChangeO2, next_deliver_eq_answers, o2Response_o2Lower_delivered]

/-- Settles O20, by cases on the open shape and, for a 5-byte frame, on the open argument kind. -/
theorem mixtureCommandBuildsTheOpenShape : Obligations.MixtureCommandBuildsTheOpenShape := by
  intro arg s
  rw [exec_cmdReadMixture, next_deliver_eq_answers]
  unfold mixtureResponse
  cases Config.mixFrameShape with
  | cmd2 => rfl
  | cmd5 =>
    cases Config.mixArgKind with
    | plain => rfl
    | o2Fraction => exact congrArg (answers s) (o2Response_o2Lower_delivered s 0x3632 arg)

end Sys2Proof.Proofs
end

section
/-! What an instruction does, said once: `exec` answers `servedState`, whose registers are `accAfter` and the rules' own
`sampleAfter`, and whose response is `answerOf`. What an instruction reads, writes or answers is then
a statement about one of these three functions. -/

namespace Sys2Proof.Proofs

open Sys2Proof.Machine Sys2Proof.Stated

/-- `ACC` after an instruction (R14, R56, R57, R72). -/
def accAfter (acc : Byte) : Instr → Byte
  | .crcInit => 0xFF
  | .srst => 0xFF
  | .crcUpd a => crc8Byte acc (a.extractLsb' 0 8)
  | _ => acc

/-- What the check of a measurement reply answers: the sample of a good one, else the status raised (R67, R68). -/
def measAnswer (rx0 rx1 rx2 : Byte) : Response :=
  match measCheck rx0 rx1 rx2 with
  | .ok => resultWord (wireWord rx0 rx1)
  | st => { Response.defaults with st := st.code }

/-- The response of an instruction less the held sample it shows, from `ACC` before it: all of the state that any rule
of a response reads (R14, R23). -/
def answerOf (acc : Byte) : Instr → Response
  | .nop => Response.defaults
  | .srst => Response.defaults
  | .swap16 a => resultWord (loByte a ++ hiByte a)
  | .crcInit => resultWord (zext16 crcSeed)
  | .crcUpd a => resultWord (zext16 (crc8Byte acc (loByte a)))
  | .crcRead => resultWord (zext16 acc)
  | .crc2 a => resultWord (zext16 (crcOfWord a))
  | .enc2 a => cmd2Response a
  | .enc5 a b => cmd5Response a b
  | .enc5O2Lo0 a b => o2Response o2MinA a b
  | .enc5O2Lo21 a b => o2Response o2MinB a b
  | .valMeas rx0 rx1 rx2 => measAnswer rx0 rx1 rx2
  | .valSet rx0 rx1 rx2 rx3 rx4 rx5 rx6 rx7 rx8 => settingsResponse rx0 rx1 rx2 rx3 rx4 rx5 rx6 rx7 rx8
  | .valDisc rx0 rx1 rx2 => measAnswer rx0 rx1 rx2
  | .illegalE => { Response.defaults with st := Status.illegalOp.code }
  | .illegalF => { Response.defaults with st := Status.illegalOp.code }
  | .cmdReset => cmd2Response (commandWord .reset)
  | .cmdStop => cmd2Response (commandWord .stopContinuousRead)
  | .cmdReadSettings => cmd5Response (commandWord .readScaleAndOffset) settingsReadArg
  | .cmdStartAir => cmd2Response (commandWord .continuousReadAir)
  | .cmdStartO2 => cmd2Response (commandWord .continuousReadO2)
  | .cmdReadMixture arg => mixtureResponse (commandWord .continuousReadMixture) arg
  | .cmdChangeO2 f => o2Response (o2Lower (commandWord .changeO2Fraction)) (commandWord .changeO2Fraction) f

/-- The state an instruction leaves: the response shows the held sample as it stands after the step (R21). -/
def servedState (i : Instr) (s : State) : State :=
  let x := sampleAfter (s.smp, s.hv) i
  { acc := accAfter s.acc i, smp := x.1, hv := x.2, inputs := s.inputs,
    rsp := some { answerOf s.acc i with smp := x.1, hv := x.2 } }

section
variable (i : Instr) (s : State)

@[simp] theorem servedState_acc : (servedState i s).acc = accAfter s.acc i := rfl
@[simp] theorem servedState_smp : (servedState i s).smp = (sampleAfter (s.smp, s.hv) i).1 := rfl
@[simp] theorem servedState_hv : (servedState i s).hv = (sampleAfter (s.smp, s.hv) i).2 := rfl
@[simp] theorem servedState_inputs : (servedState i s).inputs = s.inputs := rfl
theorem servedState_rsp : (servedState i s).rsp =
    some { answerOf s.acc i with smp := (servedState i s).smp, hv := (servedState i s).hv } := rfl

end

/-- The rules' acceptance of a measurement is `measCheck`'s (R66, R67). -/
theorem sampleAfter_valMeas (x : Sample × BitVec 1) (rx0 rx1 rx2 : Byte) :
    sampleAfter x (.valMeas rx0 rx1 rx2) =
      if measCheck rx0 rx1 rx2 = .ok then (sext32 (wireWord rx0 rx1), 1) else x := by
  simp only [measCheck_ok]
  rfl

/-- `VAL_MEAS`, by cases on what the check of the reply finds. -/
theorem execValMeas_eq (rx0 rx1 rx2 : Byte) (s : State) :
    execValMeas rx0 rx1 rx2 s = .next (servedState (.valMeas rx0 rx1 rx2) s) := by
  simp only [execValMeas, servedState, answerOf, measAnswer, sampleAfter_valMeas]
  cases measCheck rx0 rx1 rx2 <;> rfl

/-- `VAL_DISC`, by cases on what the check of the reply finds. -/
theorem execValDisc_eq (rx0 rx1 rx2 : Byte) (s : State) :
    execValDisc rx0 rx1 rx2 s = .next (servedState (.valDisc rx0 rx1 rx2) s) := by
  simp only [execValDisc, servedState, answerOf, measAnswer]
  cases measCheck rx0 rx1 rx2 <;> rfl

/-- Every instruction completes in every state, and leaves `servedState`. -/
theorem exec_eq_servedState (i : Instr) (s : State) : exec i s = .next (servedState i s) := by
  cases i
  case valMeas rx0 rx1 rx2 => exact execValMeas_eq rx0 rx1 rx2 s
  case valDisc rx0 rx1 rx2 => exact execValDisc_eq rx0 rx1 rx2 s
  all_goals rfl

/-! ### Who writes the registers, and who reads `ACC` -/

/-- The writers of `ACC` and the values they write (R14). -/
theorem accAfter_cases (acc : Byte) (i : Instr) :
    accAfter acc i = acc ∨ (i = .srst ∧ accAfter acc i = 0xFF) ∨ (i = .crcInit ∧ accAfter acc i = 0xFF) ∨
      ∃ a, i = .crcUpd a ∧ accAfter acc i = crc8Byte acc (a.extractLsb' 0 8) := by
  cases i
  case srst => exact .inr (.inl ⟨rfl, rfl⟩)
  case crcInit => exact .inr (.inr (.inl ⟨rfl, rfl⟩))
  case crcUpd a => exact .inr (.inr (.inr ⟨a, rfl, rfl⟩))
  all_goals exact .inl rfl

/-- The writers of `SMP` and `HV` and the values they write (R15, R16). -/
theorem sampleAfter_cases (x : Sample × BitVec 1) (i : Instr) :
    sampleAfter x i = x ∨ (i = .srst ∧ sampleAfter x i = (0, 0)) ∨
      ∃ a b c, i = .valMeas a b c ∧ c ≠ 0 ∧ crc8 [a, b] = c ∧
        sampleAfter x i = ((a ++ b : BitVec 16).signExtend 32, 1) := by
  cases i
  case srst => exact .inr (.inl ⟨rfl, rfl⟩)
  case valMeas a b c =>
    by_cases h : c ≠ 0 ∧ crc8 [a, b] = c
    · obtain ⟨hc, hcrc⟩ := h
      exact .inr (.inr ⟨a, b, c, rfl, hc, hcrc, if_pos ⟨hc, hcrc⟩⟩)
    · exact .inl (if_neg h)
  all_goals exact .inl rfl

/-- Only the stream operations answer by what `ACC` holds (R14). -/
theorem answerOf_ignores_acc {i : Instr} (hupd : ∀ a, i ≠ .crcUpd a) (hread : i ≠ .crcRead) (acc acc' : Byte) :
    answerOf acc i = answerOf acc' i := by
  cases i
  case crcUpd a => exact absurd rfl (hupd a)
  case crcRead => exact absurd rfl hread
  all_goals rfl

/-! ### Every response has the shape of R20 -/

/-- The numbers of the statuses run to 4 (R78). -/
theorem status_code_le_four (st : Status) : st.code.toNat ≤ 4 := by
  cases st <;> decide

/-- Flags made of the five flag bits leave bits 7:5 zero (R20). -/
theorem flagByte_high_zero (f0 f1 f2 sz cl : Bool) : (flagByte f0 f1 f2 sz cl).extractLsb' 5 3 = 0 := by
  obtain ⟨-, -, -, -, -, hhigh⟩ := flagByte_bits f0 f1 f2 sz cl
  exact hhigh

theorem defaults_fl_high_zero : Response.defaults.fl.extractLsb' 5 3 = 0 := by
  decide

/-- A response without a frame. -/
theorem responseShape_of_no_frame {r : Response} (hst : r.st.toNat ≤ 4) (hfl : r.fl.extractLsb' 5 3 = 0)
    (hlen : r.txlen = 0) (htx : r.tx = #v[0, 0, 0, 0, 0]) : ResponseShape r := by
  refine ⟨hst, hfl, .inl hlen, fun k _ => ?_⟩
  rw [htx]
  fin_cases k <;> rfl

theorem responseShape_status (st : Status) : ResponseShape { Response.defaults with st := st.code } :=
  responseShape_of_no_frame (status_code_le_four st) defaults_fl_high_zero rfl rfl

theorem responseShape_resultWord (r0 : Word) : ResponseShape (resultWord r0) :=
  responseShape_of_no_frame (status_code_le_four .ok) defaults_fl_high_zero rfl rfl

theorem responseShape_measAnswer (rx0 rx1 rx2 : Byte) : ResponseShape (measAnswer rx0 rx1 rx2) := by
  unfold measAnswer
  split
  · exact responseShape_resultWord _
  · exact responseShape_status _

/-- `VAL_SET` reports `OK` or `CRC_ERR` and builds no frame (R69). -/
theorem responseShape_settingsResponse (rx0 rx1 rx2 rx3 rx4 rx5 rx6 rx7 rx8 : Byte) :
    ResponseShape (settingsResponse rx0 rx1 rx2 rx3 rx4 rx5 rx6 rx7 rx8) := by
  refine responseShape_of_no_frame ?_ (flagByte_high_zero ..) rfl rfl
  unfold settingsResponse
  split
  · exact status_code_le_four .ok
  · exact status_code_le_four .crcErr

/-- A 2-byte frame leaves the last three bytes zero (R42). -/
theorem responseShape_cmd2Response (cmd : Word) : ResponseShape (cmd2Response cmd) := by
  refine ⟨status_code_le_four .ok, defaults_fl_high_zero, .inr (.inl rfl), fun k (hk : 2 ≤ k.val) => ?_⟩
  rw [cmd2Response_eq]
  fin_cases k
  · exact absurd hk (by decide)
  · exact absurd hk (by decide)
  all_goals rfl

/-- A 5-byte frame fills `tx`, whatever flags go with it. -/
theorem responseShape_cmd5Response_flags {fl : BitVec 8} (cmd arg : Word) (hfl : fl.extractLsb' 5 3 = 0) :
    ResponseShape { cmd5Response cmd arg with fl := fl } :=
  ⟨status_code_le_four .ok, hfl, .inr (.inr rfl), fun k (hk : 5 ≤ k.val) => absurd k.isLt (by omega)⟩

theorem responseShape_cmd5Response (cmd arg : Word) : ResponseShape (cmd5Response cmd arg) :=
  responseShape_cmd5Response_flags cmd arg defaults_fl_high_zero

theorem responseShape_o2Response (lo : Int) (cmd b : Word) : ResponseShape (o2Response lo cmd b) :=
  responseShape_cmd5Response_flags cmd _ (flagByte_high_zero ..)

/-- Whichever way the open parameters are set, 0x3632 is answered by a frame of one of the encoders. -/
theorem responseShape_mixtureResponse (cmd arg : Word) : ResponseShape (mixtureResponse cmd arg) := by
  rcases mixtureResponse_cases cmd arg with h | h | h | h <;> rw [h]
  · exact responseShape_cmd2Response cmd
  · exact responseShape_cmd5Response cmd arg
  · exact responseShape_o2Response o2MinA cmd arg
  · exact responseShape_o2Response o2MinB cmd arg

/-- Every instruction answers a response of the shape of R20. -/
theorem responseShape_answerOf (acc : Byte) (i : Instr) : ResponseShape (answerOf acc i) := by
  cases i with
  | nop | srst => exact responseShape_status .ok
  | swap16 | crcInit | crcUpd | crcRead | crc2 => exact responseShape_resultWord _
  | enc2 | cmdReset | cmdStop | cmdStartAir | cmdStartO2 => exact responseShape_cmd2Response _
  | enc5 | cmdReadSettings => exact responseShape_cmd5Response _ _
  | enc5O2Lo0 | enc5O2Lo21 | cmdChangeO2 => exact responseShape_o2Response _ _ _
  | valMeas | valDisc => exact responseShape_measAnswer _ _ _
  | valSet => exact responseShape_settingsResponse ..
  | illegalE | illegalF => exact responseShape_status .illegalOp
  | cmdReadMixture arg => exact responseShape_mixtureResponse _ arg

end Sys2Proof.Proofs
end

section
/-! What a step does, by the next input and what it decodes to (R22), and what a step can have been, told from the state
it answers. -/

namespace Sys2Proof.Proofs

open Sys2Proof.Machine Sys2Proof.Stated

section
variable {s : State} {q : Request} {rest : List Input}

theorem step_of_nothing_presented (h : s.inputs = []) : step s = .next { s with rsp := none } := by
  simp only [step, takeInput_nil s h]
  rfl

theorem step_of_reset (h : s.inputs = .reset :: rest) :
    step s = .next { s.resetRegs with inputs := rest, rsp := none } := by
  simp only [step, takeInput_cons s _ rest h]
  rfl

theorem step_of_instr {i : Instr} (h : Presents s q rest) (hq : decode q = .instr i) :
    step s = exec i { s with inputs := rest } := by
  simp only [step, takeInput_cons s _ rest h, hq]

theorem step_of_reserved (h : Presents s q rest) (hq : decode q = .reservedBits) :
    step s = .next (State.raise { s with inputs := rest } .reservedBits) := by
  simp only [step, takeInput_cons s _ rest h, hq]
  rfl

theorem step_of_unlisted {cmd : Word} (h : Presents s q rest) (hq : decode q = .unlistedCommand cmd) :
    step s = .refused (.unlistedCommand cmd) := by
  simp only [step, takeInput_cons s _ rest h, hq]
  rfl

/-- A request that decodes to an instruction leaves that instruction's `servedState`. -/
theorem step_eq_servedState {i : Instr} (h : Presents s q rest) (hq : decode q = .instr i) :
    step s = .next (servedState i { s with inputs := rest }) := by
  rw [step_of_instr h hq, exec_eq_servedState]

end

/-- The four ways a step from `s` answers a next state. -/
inductive StepCase (s : State) : State → Prop where
  | idle (h : s.inputs = []) : StepCase s { s with rsp := none }
  | reset {rest : List Input} (h : s.inputs = .reset :: rest) :
    StepCase s { s.resetRegs with inputs := rest, rsp := none }
  | reserved {q : Request} {rest : List Input} (h : Presents s q rest) (hq : decode q = .reservedBits) :
    StepCase s (State.raise { s with inputs := rest } .reservedBits)
  | served {q : Request} {rest : List Input} {i : Instr} (h : Presents s q rest) (hq : decode q = .instr i) :
    StepCase s (servedState i { s with inputs := rest })

/-- A step that answers a next state is one of the four, and an unlisted bare command is none of them. -/
theorem stepCase_of_step {s t : State} (h : step s = .next t) : StepCase s t := by
  cases hin : s.inputs with
  | nil =>
    obtain rfl := Host.Outcome.next.inj ((step_of_nothing_presented hin).symm.trans h)
    exact .idle hin
  | cons x rest =>
    cases x with
    | reset =>
      obtain rfl := Host.Outcome.next.inj ((step_of_reset hin).symm.trans h)
      exact .reset hin
    | present q =>
      cases hq : decode q with
      | instr i =>
        obtain rfl := Host.Outcome.next.inj ((step_eq_servedState hin hq).symm.trans h)
        exact .served hin hq
      | reservedBits =>
        obtain rfl := Host.Outcome.next.inj ((step_of_reserved hin hq).symm.trans h)
        exact .reserved hin hq
      | unlistedCommand cmd =>
        rw [step_of_unlisted hin hq] at h
        cases h

/-- The response a state holds influences no step (R23). -/
theorem step_forgets_rsp (s : State) (o : Option Response) : step { s with rsp := o } = step s := by
  obtain ⟨acc, smp, hv, inputs, rsp⟩ := s
  rcases inputs with _ | ⟨q | _, rest⟩
  · rfl
  · have hin (r : Option Response) : Presents ⟨acc, smp, hv, .present q :: rest, r⟩ q rest := rfl
    cases hq : decode q with
    | instr i => exact (step_eq_servedState (hin o) hq).trans (step_eq_servedState (hin rsp) hq).symm
    | reservedBits => exact (step_of_reserved (hin o) hq).trans (step_of_reserved (hin rsp) hq).symm
    | unlistedCommand cmd => exact (step_of_unlisted (hin o) hq).trans (step_of_unlisted (hin rsp) hq).symm
  · rfl

/-- A presentable request is served in one step, which makes of the held sample what the rules say (R15, R16, R79). -/
theorem step_of_presentable {s : State} {q : Request} {rest : List Input} (hq : Presentable q)
    (h : Presents s q rest) :
    ∃ t, step s = .next t ∧ t.inputs = rest ∧ (t.smp, t.hv) = sampleAfterRequest (s.smp, s.hv) q := by
  unfold sampleAfterRequest
  cases hd : decode q with
  | instr i => exact ⟨_, step_eq_servedState h hd, servedState_inputs i _, rfl⟩
  | reservedBits => exact ⟨_, step_of_reserved h hd, raise_inputs _ _, rfl⟩
  | unlistedCommand cmd => exact absurd hd (hq cmd)

end Sys2Proof.Proofs
end

section
/-! Settles O42, O31, O35, O37, O38, O39, O47, O1, O28, O29 and O41: the registers, the response port and the step. -/

namespace Sys2Proof.Proofs

open Sys2Proof.Machine Sys2Proof.Stated Sys2Proof.Laws

/-! ### The invariant -/

/-- The half of `Consistent` that speaks of the held sample and `HV` alone (R15, R16). -/
def HeldConsistent (x : Sample × BitVec 1) : Prop :=
  (x.2 = 0 → x.1 = 0) ∧ x.1 = (x.1.extractLsb' 0 16).signExtend 32

theorem heldConsistent_of_consistent {s : State} (h : Consistent s) : HeldConsistent (s.smp, s.hv) := by
  obtain ⟨hzero, hsext, -⟩ := h
  exact ⟨hzero, hsext⟩

/-- A state that shows no response is consistent when its held sample is. -/
theorem consistent_of_silent {t : State} (hheld : HeldConsistent (t.smp, t.hv)) (hrsp : t.rsp = none) :
    Consistent t := by
  obtain ⟨hzero, hsext⟩ := hheld
  refine ⟨hzero, hsext, fun r hr => ?_⟩
  rw [hrsp] at hr
  cases hr

/-- A state that shows its held sample in a response of the right shape is consistent when the held sample is. -/
theorem consistent_of_delivered {t : State} {r : Response} (hheld : HeldConsistent (t.smp, t.hv))
    (hr : ResponseShape r) (hrsp : t.rsp = some { r with smp := t.smp, hv := t.hv }) : Consistent t := by
  obtain ⟨hzero, hsext⟩ := hheld
  refine ⟨hzero, hsext, fun r' hr' => ?_⟩
  obtain rfl := Option.some.inj (hrsp.symm.trans hr')
  exact ⟨hr, rfl, rfl⟩

/-- The reset values (R24). -/
theorem heldConsistent_zero : HeldConsistent (0, 0) := ⟨fun _ => rfl, by decide⟩

/-- The low half of a sign-extended field is the field. -/
theorem extractLsb'_signExtend (w : Word) : (w.signExtend 32).extractLsb' 0 16 = w := by
  apply BitVec.eq_of_getLsbD_eq
  intro k hk
  rw [BitVec.getLsbD_extractLsb', BitVec.getLsbD_signExtend]
  simp [hk, show k < 32 by omega]

/-- An accepted sample is held sign-extended, with `HV` 1 (R67). -/
theorem heldConsistent_signExtend (w : Word) : HeldConsistent (w.signExtend 32, 1) :=
  ⟨fun h => absurd h (show (1 : BitVec 1) ≠ 0 by decide), by rw [extractLsb'_signExtend]⟩

/-- No instruction makes the held sample inconsistent: it is kept, reset or an accepted sample. -/
theorem heldConsistent_sampleAfter {x : Sample × BitVec 1} (hx : HeldConsistent x) (i : Instr) :
    HeldConsistent (sampleAfter x i) := by
  obtain h | ⟨-, h⟩ | ⟨a, b, c, -, -, -, h⟩ := sampleAfter_cases x i <;> rw [h]
  · exact hx
  · exact heldConsistent_zero
  · exact heldConsistent_signExtend (a ++ b)

theorem consistent_servedState {s : State} (hs : HeldConsistent (s.smp, s.hv)) (i : Instr) :
    Consistent (servedState i s) :=
  consistent_of_delivered (heldConsistent_sampleAfter hs i) (responseShape_answerOf s.acc i) (servedState_rsp i s)

/-- Settles O42, by the four ways a step answers a next state. -/
theorem stepKeepsConsistent : Obligations.StepKeepsConsistent := by
  intro s t hs h
  have hheld := heldConsistent_of_consistent hs
  cases stepCase_of_step h with
  | idle => exact consistent_of_silent hheld rfl
  | reset => exact consistent_of_silent heldConsistent_zero rfl
  | reserved => exact consistent_of_delivered hheld (responseShape_status .reservedBits) rfl
  | served => exact consistent_servedState hheld _

/-- Settles O41. -/
theorem consistentAtReset : Obligations.ConsistentAtReset :=
  consistent_of_silent heldConsistent_zero rfl

/-! ### Completion and hidden state -/

/-- Settles O31. -/
theorem everyInstructionCompletes : Obligations.EveryInstructionCompletes := by
  intro i s
  exact ⟨servedState i s, _, exec_eq_servedState i s, rfl, servedState_rsp i s, rfl, rfl⟩

/-- Settles O35: two such states differ at most in the response they hold, which no step reads. -/
theorem noHiddenState : Obligations.NoHiddenState := by
  rintro ⟨acc, smp, hv, inputs, rsp⟩ s' rfl rfl rfl rfl
  exact step_forgets_rsp s' rsp

/-! ### Who writes and reads the registers -/

/-- Settles O37. -/
theorem accChangesOnlyByItsWriters : Obligations.AccChangesOnlyByItsWriters := by
  intro s t h hne
  cases stepCase_of_step h with
  | idle => exact absurd rfl hne
  | reset hin => exact .inl ⟨_, hin, rfl⟩
  | reserved => exact absurd rfl hne
  | @served q rest i hin hq =>
    refine .inr ⟨q, rest, hin, ?_⟩
    simp only [servedState_acc] at hne ⊢
    obtain hkept | ⟨rfl, hacc⟩ | ⟨rfl, hacc⟩ | ⟨a, rfl, hacc⟩ := accAfter_cases s.acc i
    · exact absurd hkept hne
    · exact .inl ⟨hq, hacc⟩
    · exact .inr (.inl ⟨hq, hacc⟩)
    · exact .inr (.inr ⟨a, hq, hacc⟩)

/-- Settles O38: the held sample after an instruction is told without `ACC`, and so is the answer of all but the two
readers. -/
theorem accIsReadOnlyByTheStream : Obligations.AccIsReadOnlyByTheStream := by
  intro i s v hupd hread
  refine ⟨_, _, exec_eq_servedState i s, exec_eq_servedState i _, ?_, rfl, rfl⟩
  simp only [servedState, answerOf_ignores_acc hupd hread v s.acc]

/-- Settles O39. -/
theorem sampleChangesOnlyByItsWriters : Obligations.SampleChangesOnlyByItsWriters := by
  intro s t h hne
  cases stepCase_of_step h with
  | idle => simp at hne
  | reset hin => exact .inl ⟨_, hin, rfl, rfl⟩
  | reserved => simp at hne
  | @served q rest i hin hq =>
    refine .inr ⟨q, rest, hin, ?_⟩
    simp only [servedState_smp, servedState_hv] at hne ⊢
    obtain hkept | ⟨rfl, hx⟩ | ⟨a, b, c, rfl, hc, hcrc, hx⟩ := sampleAfter_cases (s.smp, s.hv) i
    · simp [hkept] at hne
    · exact .inl ⟨hq, by rw [hx], by rw [hx]⟩
    · exact .inr ⟨a, b, c, hq, hc, hcrc, by rw [hx], by rw [hx]⟩

/-- Settles O47, by induction on the requests: each is served in one step. -/
theorem heldSampleIsTheLastAccepted : Obligations.HeldSampleIsTheLastAccepted := by
  intro qs
  induction qs with
  | nil =>
    intro s rest _ hin
    exact ⟨s, run_zero s, hin, rfl⟩
  | cons q qs ih =>
    intro s rest hqs hin
    obtain ⟨hq, htail⟩ := List.forall_mem_cons.mp hqs
    obtain ⟨u, hstep, hinu, hu⟩ := step_of_presentable hq hin
    obtain ⟨t, hrun, hint, ht⟩ := ih u rest htail hinu
    refine ⟨t, (run_succ_of_next qs.length hstep).trans hrun, hint, ?_⟩
    rw [ht, hu, List.foldl_cons]

/-! ### Reset, and the step -/

/-- Settles O1. -/
theorem resetAndSrstLeaveResetValues : Obligations.ResetAndSrstLeaveResetValues :=
  ⟨rfl, rfl, rfl, rfl, fun s => ⟨_, exec_eq_servedState .srst s, rfl, rfl, rfl⟩, fun _ => rfl⟩

/-- Settles O28. -/
theorem stepRunsTheDecodedInstruction : Obligations.StepRunsTheDecodedInstruction :=
  fun _ _ _ _ h hq => step_of_instr h hq

/-- Settles O29. -/
theorem stepsThatRunNoInstruction : Obligations.StepsThatRunNoInstruction :=
  ⟨fun _ h => step_of_nothing_presented h, fun _ _ _ _ h hq => step_of_unlisted h hq⟩

end Sys2Proof.Proofs
end

section
/-! Settles O36 and O40: requests are served one a step in the order presented, and repeating an instruction changes
nothing (20_memory.md R34, R32). The registers after a list of requests are a fold of `registersAfter`, which reads
neither port; an instruction repeated writes the same registers and reads the same `ACC`. -/

namespace Sys2Proof.Proofs

open Sys2Proof.Machine Sys2Proof.Stated Sys2Proof.Laws

/-! ### Requests in order -/

/-- The block's complete state (R11): `ACC`, and the held sample with `HV`. -/
def registers (s : State) : Byte × (Sample × BitVec 1) := (s.acc, s.smp, s.hv)

/-- What serving a request makes of the registers, through what it decodes to: a refused request changes nothing (R79). -/
def registersAfter (r : Byte × (Sample × BitVec 1)) (q : Request) : Byte × (Sample × BitVec 1) :=
  match decode q with
  | .instr i => (accAfter r.1 i, sampleAfter r.2 i)
  | .reservedBits => r
  | .unlistedCommand _ => r

/-- Every request word can be presented: an operation code is a row of the table, refused or not (R37, R38). -/
theorem presentable_word (w : ReqWord) : Presentable (.word w) := by
  intro cmd
  have legal (i : Instr) : decodeLegal w i ≠ .unlistedCommand cmd := by
    rcases decodeLegal_cases w i with h | h <;> simp [h]
  simp only [decode, decodeReq]
  split
  case h_15 | h_16 => exact Decoded.noConfusion
  all_goals exact legal _

/-- A presentable request is served in one step, and the registers it leaves are `registersAfter`. -/
theorem step_registers_of_presentable {s : State} {q : Request} {rest : List Input} (hq : Presentable q)
    (h : Presents s q rest) :
    ∃ t, step s = .next t ∧ t.inputs = rest ∧ registers t = registersAfter (registers s) q := by
  unfold registersAfter
  cases hd : decode q with
  | instr i => exact ⟨_, step_eq_servedState h hd, servedState_inputs i _, rfl⟩
  | reservedBits => exact ⟨_, step_of_reserved h hd, raise_inputs _ _, rfl⟩
  | unlistedCommand cmd => exact absurd hd (hq cmd)

/-- A list of presentable requests is served one a step, whatever follows it, and folds `registersAfter` over the
registers in the order presented (R34). -/
theorem run_registers_of_presentable (qs : List Request) :
    ∀ (s : State) (rest : List Input), (∀ q ∈ qs, Presentable q) → s.inputs = qs.map Input.present ++ rest →
      ∃ t, core.run qs.length s = .next t ∧ t.inputs = rest ∧ registers t = qs.foldl registersAfter (registers s) := by
  induction qs with
  | nil =>
    intro s rest _ hin
    exact ⟨s, run_zero s, hin, rfl⟩
  | cons q qs ih =>
    intro s rest hqs hin
    obtain ⟨hq, htail⟩ := List.forall_mem_cons.mp hqs
    obtain ⟨u, hstep, hinu, hu⟩ := step_registers_of_presentable hq hin
    obtain ⟨t, hrun, hint, ht⟩ := ih u rest htail hinu
    refine ⟨t, (run_succ_of_next qs.length hstep).trans hrun, hint, ?_⟩
    rw [ht, hu, List.foldl_cons]

/-- The same for a list of request words: none is refused. -/
theorem run_registers_of_words (ws : List ReqWord) (s : State) (rest : List Input)
    (hin : s.inputs = ws.map (fun w => Input.present (.word w)) ++ rest) :
    ∃ t, core.run ws.length s = .next t ∧ t.inputs = rest ∧
      registers t = (ws.map Request.word).foldl registersAfter (registers s) := by
  have hqs : ∀ q ∈ ws.map Request.word, Presentable q := List.forall_mem_map.mpr fun w _ => presentable_word w
  have hin' : s.inputs = (ws.map Request.word).map Input.present ++ rest := by
    rw [hin, List.map_map]
    rfl
  have hrun := run_registers_of_presentable (ws.map Request.word) s rest hqs hin'
  rwa [List.length_map] at hrun

/-- Settles O36: both runs leave the same fold of the same registers. -/
theorem requestsAreServedInOrder : Obligations.RequestsAreServedInOrder := by
  intro ws s rest hin
  obtain ⟨t, hrun, hint, ht⟩ := run_registers_of_words ws s rest hin
  refine ⟨t, hrun, hint, fun s' hacc hsmp hhv hin' => ?_⟩
  obtain ⟨t', hrun', -, ht'⟩ := run_registers_of_words ws s' [] (by rw [hin', List.append_nil])
  have hregs : registers s' = registers s := by simp only [registers, hacc, hsmp, hhv]
  have hsame : registers t' = registers t := by rw [ht', ht, hregs]
  simp only [registers, Prod.mk.injEq] at hsame
  exact ⟨t', hrun', hsame⟩

/-! ### An instruction repeated -/

/-- A writer of `ACC` other than `CRC_UPD` writes a constant. -/
theorem accAfter_idem {i : Instr} (hupd : ∀ a, i ≠ .crcUpd a) (acc : Byte) :
    accAfter (accAfter acc i) i = accAfter acc i := by
  cases i
  case crcUpd a => exact absurd rfl (hupd a)
  all_goals rfl

/-- A writer of the held sample accepts or refuses by its operands alone, and writes by them alone (R66, R67). -/
theorem sampleAfter_idem (x : Sample × BitVec 1) (i : Instr) :
    sampleAfter (sampleAfter x i) i = sampleAfter x i := by
  cases i
  case valMeas a b c =>
    simp only [sampleAfter_valMeas]
    split_ifs <;> rfl
  all_goals rfl

/-- No instruction but `CRC_UPD` both changes `ACC` and answers by it: `CRC_READ` answers by it and leaves it. -/
theorem answerOf_accAfter {i : Instr} (hupd : ∀ a, i ≠ .crcUpd a) (acc : Byte) :
    answerOf (accAfter acc i) i = answerOf acc i := by
  by_cases hread : i = .crcRead
  · subst hread
    rfl
  · exact answerOf_ignores_acc hupd hread _ _

/-- Settles O40. -/
theorem repeatingAnOperationChangesNothing : Obligations.RepeatingAnOperationChangesNothing := by
  intro i s hupd
  refine ⟨servedState i s, exec_eq_servedState i s, ?_⟩
  rw [exec_eq_servedState]
  have hacc := accAfter_idem hupd s.acc
  have hsample := sampleAfter_idem (s.smp, s.hv) i
  have hanswer := answerOf_accAfter hupd s.acc
  simp only [servedState, hacc, hsample, hanswer]

end Sys2Proof.Proofs
end

section
/-! Settles O24, O23, O17, O21, O22 and O25: decoding. The two illegal codes are told by the operation code alone; for every
other code the reserved fields come first, then `operation` of the operand fields (R22, R37, R38). -/

namespace Sys2Proof.Proofs

open Sys2Proof.Machine Sys2Proof.Stated Sys2Proof.Laws

/-! ### The request word by its fields -/

/-- The operation of each code with the operand fields it uses (R37), whatever the reserved fields hold. -/
def operation (op : BitVec 4) (a b : Word) (x : Fin 9 → Byte) : Instr :=
  match op.toNat with
  | 0x0 => .nop
  | 0x1 => .srst
  | 0x2 => .swap16 a
  | 0x3 => .crcInit
  | 0x4 => .crcUpd a
  | 0x5 => .crcRead
  | 0x6 => .crc2 a
  | 0x7 => .enc2 a
  | 0x8 => .enc5 a b
  | 0x9 => .enc5O2Lo0 a b
  | 0xA => .enc5O2Lo21 a b
  | 0xB => .valMeas (x 0) (x 1) (x 2)
  | 0xC => .valSet (x 0) (x 1) (x 2) (x 3) (x 4) (x 5) (x 6) (x 7) (x 8)
  | 0xD => .valDisc (x 0) (x 1) (x 2)
  | 0xE => .illegalE
  | _ => .illegalF

/-- The receive window of a request word (R36). -/
def window (w : ReqWord) (k : Fin 9) : Byte := reqRx w k.val

/-- The operation a request word names. -/
def operationOf (w : ReqWord) : Instr := operation (reqOp w) (reqA w) (reqB w) (window w)

section
variable {w : ReqWord}

theorem decode_of_illegalE (h : reqOp w = 0xE) : decode (.word w) = .instr .illegalE := by
  simp only [decode, decodeReq, h]
  rfl

theorem decode_of_illegalF (h : reqOp w = 0xF) : decode (.word w) = .instr .illegalF := by
  simp only [decode, decodeReq, h]
  rfl

/-- For a legal code the reserved fields decide between the operation and the refusal (R22, R38). -/
theorem decode_of_legal (hE : reqOp w ≠ 0xE) (hF : reqOp w ≠ 0xF) :
    decode (.word w) = decodeLegal w (operationOf w) := by
  simp only [decode, decodeReq, operationOf, operation]
  generalize reqOp w = op at hE hF ⊢
  have hlt := op.isLt
  have hE' : op.toNat ≠ 0xE := fun h => hE (BitVec.eq_of_toNat_eq h)
  have hF' : op.toNat ≠ 0xF := fun h => hF (BitVec.eq_of_toNat_eq h)
  have hcode : op.toNat < 14 := by omega
  interval_cases op.toNat <;> rfl

/-- With zero reserved fields every code decodes to its operation, the illegal ones included. -/
theorem decode_of_reserved_zero (h : reservedNonzero w = false) : decode (.word w) = .instr (operationOf w) := by
  by_cases hE : reqOp w = 0xE
  · rw [decode_of_illegalE hE, operationOf, hE]
    rfl
  by_cases hF : reqOp w = 0xF
  · rw [decode_of_illegalF hF, operationOf, hF]
    rfl
  rw [decode_of_legal hE hF, decodeLegal_of_zero w _ h]

/-- A nonzero reserved field of a legal code is all that is checked (R38). -/
theorem decode_of_reserved_nonzero (hE : reqOp w ≠ 0xE) (hF : reqOp w ≠ 0xF) (h : reservedNonzero w = true) :
    decode (.word w) = .reservedBits := by
  rw [decode_of_legal hE hF, decodeLegal, if_pos h]

end

/-! ### Bare command words -/

theorem decode_commandWord (c : Command) (arg : Word) :
    decode (.command (commandWord c) arg) = .instr (commandInstr c arg) := by
  simp only [decode, decodeCommand, commandOf_commandWord]

theorem decode_of_unlisted {cmd : Word} (h : ∀ c, cmd ≠ commandWord c) (arg : Word) :
    decode (.command cmd arg) = .unlistedCommand cmd := by
  have hnone : commandOf cmd = none := by simp only [commandOf, h, if_false]
  simp only [decode, decodeCommand, hnone]

/-- The list of R47 holds the word of every command. -/
theorem commandWord_mem (c : Command) :
    commandWord c ∈ [(0x0006 : Word), 0x3FF9, 0x3661, 0x3608, 0x3603, 0x3632, 0xE17D] := by
  cases c <;> decide

/-! ### Decoding after encoding -/

/-- The window of an assembled request holds the bytes given. -/
theorem window_packRequest (op : BitVec 4) (a b : Word) (rx0 rx1 rx2 rx3 rx4 rx5 rx6 rx7 rx8 : Byte) :
    window (packRequest op a b rx0 rx1 rx2 rx3 rx4 rx5 rx6 rx7 rx8)
      = ![rx0, rx1, rx2, rx3, rx4, rx5, rx6, rx7, rx8] := by
  funext k
  rw [window, reqRx_packRequest op a b _ _ _ _ _ _ _ _ _ k.val k.isLt]
  fin_cases k <;> rfl

/-- An assembled request decodes to the operation of its code on the fields given. -/
theorem decode_packRequest (op : BitVec 4) (a b : Word) (rx0 rx1 rx2 rx3 rx4 rx5 rx6 rx7 rx8 : Byte) :
    decode (.word (packRequest op a b rx0 rx1 rx2 rx3 rx4 rx5 rx6 rx7 rx8))
      = .instr (operation op a b ![rx0, rx1, rx2, rx3, rx4, rx5, rx6, rx7, rx8]) := by
  rw [decode_of_reserved_zero (reservedNonzero_packRequest ..), operationOf, reqOp_packRequest, reqA_packRequest,
    reqB_packRequest, window_packRequest]

/-- Decoding inverts encoding, on request words and on bare commands. -/
theorem decode_encode (i : Instr) : decode (encode i) = .instr i := by
  cases i with
  | cmdReset => exact decode_commandWord .reset 0
  | cmdStop => exact decode_commandWord .stopContinuousRead 0
  | cmdReadSettings => exact decode_commandWord .readScaleAndOffset 0
  | cmdStartAir => exact decode_commandWord .continuousReadAir 0
  | cmdStartO2 => exact decode_commandWord .continuousReadO2 0
  | cmdReadMixture arg => exact decode_commandWord .continuousReadMixture arg
  | cmdChangeO2 f => exact decode_commandWord .changeO2Fraction f
  -- every other row is a request word, of format `REQ128`
  | _ => exact decode_packRequest ..

/-! ### The statements -/

/-- Settles O24. -/
theorem decodeOfEncodeIsTheInstruction : Obligations.DecodeOfEncodeIsTheInstruction := decode_encode

/-- Settles O23: the reserved fields alone decide between the refusal and the operation. -/
theorem reservedFieldsMustBeZero : Obligations.ReservedFieldsMustBeZero := by
  intro w hE hF
  refine ⟨fun hrsv s rest hin => ?_, fun h0 h1 => ?_⟩
  · have hnonzero : reservedNonzero w = true := by
      rw [reservedNonzero, Bool.or_eq_true, bne_iff_ne, bne_iff_ne]
      exact hrsv
    exact step_of_reserved hin (decode_of_reserved_nonzero hE hF hnonzero)
  · exact ⟨operationOf w, decode_of_reserved_zero ((reservedNonzero_eq_false w).mpr ⟨h0, h1⟩)⟩

/-- Settles O17. -/
theorem illegalCodesRaiseIllegalOp : Obligations.IllegalCodesRaiseIllegalOp :=
  ⟨fun _ => decode_of_illegalE, fun _ => decode_of_illegalF, exec_eq_servedState .illegalE,
    exec_eq_servedState .illegalF⟩

/-- Settles O21. -/
theorem listedCommandWordsDecode : Obligations.ListedCommandWordsDecode := by
  refine ⟨fun arg => ⟨decode_commandWord .reset arg, decode_commandWord .stopContinuousRead arg,
    decode_commandWord .readScaleAndOffset arg, decode_commandWord .continuousReadAir arg,
    decode_commandWord .continuousReadO2 arg, decode_commandWord .continuousReadMixture arg,
    decode_commandWord .changeO2Fraction arg⟩, fun cmd arg hcmd => decode_of_unlisted (fun c h => ?_) arg⟩
  exact hcmd (h ▸ commandWord_mem c)

/-- Settles O22: with the reserved fields zero, each code's clause is `operation` at that code. -/
theorem operationCodeSelectsTheOperation : Obligations.OperationCodeSelectsTheOperation := by
  intro w
  refine ⟨decode_of_illegalE, decode_of_illegalF, ?_⟩
  rintro h0 h1 a b rfl rfl x hx
  obtain rfl : x = window w := funext hx
  have hdecode (op : BitVec 4) (hop : w.extractLsb' 0 4 = op) :
      decode (.word w) = .instr (operation op (reqA w) (reqB w) (window w)) := by
    rw [← hop]
    exact decode_of_reserved_zero ((reservedNonzero_eq_false w).mpr ⟨h0, h1⟩)
  exact ⟨hdecode 0x0, hdecode 0x1, hdecode 0x2, hdecode 0x3, hdecode 0x4, hdecode 0x5, hdecode 0x6, hdecode 0x7,
    hdecode 0x8, hdecode 0x9, hdecode 0xA, hdecode 0xB, hdecode 0xC, hdecode 0xD⟩

/-- Settles O25: each word is closed, and its decoding evaluates. -/
theorem writtenOutWordsDecode : Obligations.WrittenOutWordsDecode := by
  unfold Obligations.WrittenOutWordsDecode
  decide

end Sys2Proof.Proofs
end

section
/-! Settles O26, O53, O27 and O18: the assembler of R51, and the pseudo-instructions of R52 with the bare command words that
run as them. A line that fits assembles to the encoding of its operation, which decodes to it; so each statement is about
the ranges of the operands, the fields of an encoding, or the frame of an encoder. -/

namespace Sys2Proof.Proofs

open Sys2Proof.Machine Sys2Proof.Stated Sys2Proof.Laws

/-! ### Operand ranges, and the fields that hold them -/

theorem wordFits_iff (v : Int) : wordFits v = true ↔ InWord v := by
  simp [wordFits, InWord]

theorem signedFits_iff (v : Int) : signedFits v = true ↔ InSigned v := by
  simp [signedFits, InSigned]

theorem byteFits_iff (v : Int) : byteFits v = true ↔ InByte v := by
  simp [byteFits, InByte]

theorem inWord_of_inByte {v : Int} (h : InByte v) : InWord v := by
  unfold InByte at h
  unfold InWord
  omega

theorem toNat_asmWord {v : Int} (h : InWord v) : ((asmWord v).toNat : Int) = v := by
  unfold InWord at h
  rw [asmWord, BitVec.toNat_ofInt]
  omega

theorem toNat_asmByte {v : Int} (h : InByte v) : ((asmByte v).toNat : Int) = v := by
  unfold InByte at h
  rw [asmByte, BitVec.toNat_ofInt]
  omega

theorem toInt_asmWord {v : Int} (h : InSigned v) : (asmWord v).toInt = v := by
  unfold InSigned at h
  rw [asmWord, BitVec.toInt_ofInt, Int.bmod_def]
  omega

/-! ### Lines that fit, and lines that do not -/

theorem assemble_of_fits {l : AsmLine} (h : l.fits = true) : assemble l = some (encode l.instr) := if_pos h

theorem assemble_of_not_fits {l : AsmLine} (h : ¬ l.fits = true) : assemble l = none := if_neg h

/-- What assembles is the encoding of a line that fits. -/
theorem eq_encode_of_assemble {l : AsmLine} {q : Request} (h : assemble l = some q) :
    l.fits = true ∧ q = encode l.instr := by
  by_cases hfits : l.fits = true
  · rw [assemble_of_fits hfits] at h
    exact ⟨hfits, (Option.some.inj h).symm⟩
  · rw [assemble_of_not_fits hfits] at h
    cases h

theorem assemblesTo_of_fits {l : AsmLine} (h : l.fits = true) : AssemblesTo l l.instr :=
  ⟨encode l.instr, assemble_of_fits h, decode_encode l.instr⟩

/-- The operation of a line that fits is well-formed: `CRC_UPD` is the one with a check of its own (R51). -/
theorem wellFormed_of_fits {l : AsmLine} (h : l.fits = true) : l.instr.wellFormed = true := by
  cases l
  case crcUpd a =>
    have hbyte : InByte a := (byteFits_iff a).mp h
    have hvalue := toNat_asmWord (inWord_of_inByte hbyte)
    obtain ⟨-, hle⟩ := hbyte
    exact decide_eq_true (by omega)
  all_goals rfl

/-! ### Exact operands, by the shape of the line -/

/-- A line with the operand `A`: its range is what `fits` checks, and its field keeps a number in that range. -/
theorem exactA_of {fits : Int → Prop} {l : Int → AsmLine} {i : Word → Instr}
    (hfits : ∀ a, (l a).fits = true ↔ fits a) (hinstr : ∀ a, (l a).instr = i (asmWord a))
    (hword : ∀ a, fits a → InWord a) : ExactA fits l i := by
  intro a
  refine ⟨fun ha => ⟨asmWord a, ?_, toNat_asmWord (hword a ha)⟩, fun ha => ?_⟩
  · rw [← hinstr a]
    exact assemblesTo_of_fits ((hfits a).mpr ha)
  · exact assemble_of_not_fits (mt (hfits a).mp ha)

/-- A line with the operands `A` and `B`: the field of `B`, read back by `valueB`, keeps a number in `B`'s range. -/
theorem exactAB_of {fitsB : Int → Prop} {valueB : Word → Int} {l : Int → Int → AsmLine} {i : Word → Word → Instr}
    (hfits : ∀ a b, (l a b).fits = true ↔ InWord a ∧ fitsB b)
    (hinstr : ∀ a b, (l a b).instr = i (asmWord a) (asmWord b))
    (hvalue : ∀ b, fitsB b → valueB (asmWord b) = b) : ExactAB fitsB valueB l i := by
  intro a b
  refine ⟨fun hab => ⟨asmWord a, asmWord b, ?_, toNat_asmWord hab.1, hvalue b hab.2⟩, fun hab => ?_⟩
  · rw [← hinstr a b]
    exact assemblesTo_of_fits ((hfits a b).mpr hab)
  · exact assemble_of_not_fits (mt (hfits a b).mp hab)

/-- A line with the three bytes of a measurement reply. -/
theorem exactReply_of {l : Int → Int → Int → AsmLine} {i : Byte → Byte → Byte → Instr}
    (hfits : ∀ x y z, (l x y z).fits = (byteFits x && byteFits y && byteFits z))
    (hinstr : ∀ x y z, (l x y z).instr = i (asmByte x) (asmByte y) (asmByte z)) : ExactReply l i := by
  intro x y z
  have hiff : (l x y z).fits = true ↔ InByte x ∧ InByte y ∧ InByte z := by
    simp only [hfits, Bool.and_eq_true, byteFits_iff, and_assoc]
  refine ⟨fun h => ⟨asmByte x, asmByte y, asmByte z, ?_, ?_⟩, fun h => assemble_of_not_fits (mt hiff.mp h)⟩
  · rw [← hinstr x y z]
    exact assemblesTo_of_fits (hiff.mpr h)
  · obtain ⟨hx, hy, hz⟩ := h
    exact ⟨toNat_asmByte hx, toNat_asmByte hy, toNat_asmByte hz⟩

/-- The line of `VAL_SET` with its nine bytes. -/
def valSetLine (x : Fin 9 → Int) : AsmLine := .valSet (x 0) (x 1) (x 2) (x 3) (x 4) (x 5) (x 6) (x 7) (x 8)

theorem valSetLine_fits_iff (x : Fin 9 → Int) : (valSetLine x).fits = true ↔ ∀ k, InByte (x k) := by
  simp only [valSetLine, AsmLine.fits, Bool.and_eq_true, byteFits_iff, and_assoc, Fin.forall_fin_succ, IsEmpty.forall_iff,
    and_true]
  rfl

theorem fits_enc5_iff (a b : Int) : (AsmLine.enc5 a b).fits = true ↔ InWord a ∧ InWord b := by
  simp only [AsmLine.fits, Bool.and_eq_true, wordFits_iff]

theorem fits_enc5O2Lo0_iff (a b : Int) : (AsmLine.enc5O2Lo0 a b).fits = true ↔ InWord a ∧ InSigned b := by
  simp only [AsmLine.fits, Bool.and_eq_true, wordFits_iff, signedFits_iff]

theorem fits_enc5O2Lo21_iff (a b : Int) : (AsmLine.enc5O2Lo21 a b).fits = true ↔ InWord a ∧ InSigned b :=
  fits_enc5O2Lo0_iff a b

/-- Settles O26. -/
theorem assemblyIsExactOrAnError : Obligations.AssemblyIsExactOrAnError := by
  refine ⟨fun l q h => ?_, assemblesTo_of_fits rfl, assemblesTo_of_fits rfl, assemblesTo_of_fits rfl,
    assemblesTo_of_fits rfl,
    exactA_of wordFits_iff (fun _ => rfl) (fun _ => id),
    exactA_of byteFits_iff (fun _ => rfl) (fun _ => inWord_of_inByte),
    exactA_of wordFits_iff (fun _ => rfl) (fun _ => id),
    exactA_of wordFits_iff (fun _ => rfl) (fun _ => id),
    exactAB_of fits_enc5_iff (fun _ _ => rfl) (fun _ => toNat_asmWord),
    exactAB_of fits_enc5O2Lo0_iff (fun _ _ => rfl) (fun _ => toInt_asmWord),
    exactAB_of fits_enc5O2Lo21_iff (fun _ _ => rfl) (fun _ => toInt_asmWord),
    exactReply_of (fun _ _ _ => rfl) (fun _ _ _ => rfl),
    exactReply_of (fun _ _ _ => rfl) (fun _ _ _ => rfl),
    fun x => ⟨fun hx => ?_, fun hx => ?_⟩⟩
  · obtain ⟨hfits, rfl⟩ := eq_encode_of_assemble h
    exact ⟨decode_encode l.instr, wellFormed_of_fits hfits⟩
  · exact ⟨fun k => asmByte (x k), assemblesTo_of_fits ((valSetLine_fits_iff x).mpr hx), fun k => toNat_asmByte (hx k)⟩
  · exact assemble_of_not_fits (mt (valSetLine_fits_iff x).mp hx)

/-! ### The fields a line leaves zero -/

/-- The zero fields of R51 in a request word. -/
def UnusedZero (w : ReqWord) : Prop :=
  reqRsv0 w = 0 ∧ reqRsv1 w = 0 ∧
  (reqOp w ∉ [(0x2 : BitVec 4), 0x4, 0x6, 0x7, 0x8, 0x9, 0xA] → reqA w = 0) ∧
  (reqOp w = 0x4 → hiByte (reqA w) = 0) ∧
  (reqOp w ∉ [(0x8 : BitVec 4), 0x9, 0xA] → reqB w = 0) ∧
  (∀ k : Nat, k < 3 → reqOp w ∉ [(0xB : BitVec 4), 0xC, 0xD] → reqRx w k = 0) ∧
  ∀ k : Nat, 3 ≤ k → k < 9 → reqOp w ≠ 0xC → reqRx w k = 0

/-- A request without a window: its operand fields are the ones to look at. -/
theorem unusedZero_of_operands {op : BitVec 4} {a b : Word}
    (ha : op ∉ [(0x2 : BitVec 4), 0x4, 0x6, 0x7, 0x8, 0x9, 0xA] → a = 0) (hcrc : op = 0x4 → hiByte a = 0)
    (hb : op ∉ [(0x8 : BitVec 4), 0x9, 0xA] → b = 0) : UnusedZero (packRequest op a b 0 0 0 0 0 0 0 0 0) := by
  have hrx (k : Nat) (hk : k < 9) : reqRx (packRequest op a b 0 0 0 0 0 0 0 0 0) k = 0 := by
    rw [reqRx_packRequest op a b _ _ _ _ _ _ _ _ _ k hk]
    interval_cases k <;> rfl
  rw [UnusedZero, reqRsv0_packRequest, reqRsv1_packRequest, reqOp_packRequest, reqA_packRequest, reqB_packRequest]
  exact ⟨rfl, rfl, ha, hcrc, hb, fun k hk _ => hrx k (by omega), fun k _ hk _ => hrx k hk⟩

/-- A request with a window: past the third byte only `VAL_SET` uses it. -/
theorem unusedZero_of_window {op : BitVec 4} {rx0 rx1 rx2 rx3 rx4 rx5 rx6 rx7 rx8 : Byte}
    (hop : op ∈ [(0xB : BitVec 4), 0xC, 0xD]) (hrest : op ≠ 0xC → [rx3, rx4, rx5, rx6, rx7, rx8] = [0, 0, 0, 0, 0, 0]) :
    UnusedZero (packRequest op 0 0 rx0 rx1 rx2 rx3 rx4 rx5 rx6 rx7 rx8) := by
  have hrx (k : Nat) (h3 : 3 ≤ k) (hk : k < 9) (hC : op ≠ 0xC) :
      reqRx (packRequest op 0 0 rx0 rx1 rx2 rx3 rx4 rx5 rx6 rx7 rx8) k = 0 := by
    rw [reqRx_packRequest op 0 0 _ _ _ _ _ _ _ _ _ k hk]
    obtain ⟨⟩ := hrest hC
    interval_cases k <;> rfl
  rw [UnusedZero, reqRsv0_packRequest, reqRsv1_packRequest, reqOp_packRequest, reqA_packRequest, reqB_packRequest]
  exact ⟨rfl, rfl, fun _ => rfl, fun _ => rfl, fun _ => rfl, fun _ _ h => absurd hop h, hrx⟩

/-- A byte value leaves `A[15:8]` zero. -/
theorem hiByte_of_crcUpdOperandFits {a : Word} (h : crcUpdOperandFits a = true) : hiByte a = 0 := by
  have hle : a.toNat ≤ 0xFF := of_decide_eq_true h
  apply BitVec.eq_of_toNat_eq
  rw [hiByte, BitVec.extractLsb'_toNat, Nat.shiftRight_eq_div_pow, Nat.div_eq_of_lt (by omega)]
  rfl

/-- `A[15:8]` stands at `REQ[31:24]` (R36). -/
theorem hiByte_reqA (w : ReqWord) : hiByte (reqA w) = w.extractLsb' 24 8 := by
  apply BitVec.eq_of_getLsbD_eq
  intro k hk
  simp only [hiByte, reqA, BitVec.getLsbD_extractLsb', hk, show 8 + k < 16 by omega, decide_true, Bool.true_and,
    ← Nat.add_assoc]

/-- The encoding of a well-formed instruction leaves every field its operation does not use zero. -/
theorem unusedZero_of_encode {i : Instr} {w : ReqWord} (hwf : i.wellFormed = true) (h : encode i = .word w) :
    UnusedZero w := by
  cases i with
  | cmdReset | cmdStop | cmdReadSettings | cmdStartAir | cmdStartO2 | cmdReadMixture | cmdChangeO2 => cases h
  | nop | srst | crcInit | crcRead | illegalE | illegalF =>
    cases h
    exact unusedZero_of_operands (fun _ => rfl) (fun _ => rfl) (fun _ => rfl)
  | swap16 | crc2 | enc2 =>
    cases h
    exact unusedZero_of_operands (fun hop => absurd hop (by decide)) (fun hop => absurd hop (by decide)) (fun _ => rfl)
  | crcUpd a =>
    cases h
    exact unusedZero_of_operands (fun hop => absurd hop (by decide)) (fun _ => hiByte_of_crcUpdOperandFits hwf)
      (fun _ => rfl)
  | enc5 | enc5O2Lo0 | enc5O2Lo21 =>
    cases h
    exact unusedZero_of_operands (fun hop => absurd hop (by decide)) (fun hop => absurd hop (by decide))
      (fun hop => absurd hop (by decide))
  | valMeas | valDisc =>
    cases h
    exact unusedZero_of_window (by decide) (fun _ => rfl)
  | valSet =>
    cases h
    exact unusedZero_of_window (by decide) (fun hop => absurd rfl hop)

/-- No line is a bare command: a pseudo-instruction expands to a request word (R52). -/
theorem encode_instr_eq_word (l : AsmLine) : ∃ w, encode l.instr = .word w := by
  cases l <;> exact ⟨_, rfl⟩

/-- Settles O53. -/
theorem unusedFieldsAssembleAsZero : Obligations.UnusedFieldsAssembleAsZero := by
  intro l q h
  obtain ⟨hfits, rfl⟩ := eq_encode_of_assemble h
  obtain ⟨w, hw⟩ := encode_instr_eq_word l
  obtain ⟨hrsv0, hrsv1, ha, hcrc, hb, hrx⟩ := unusedZero_of_encode (wellFormed_of_fits hfits) hw
  exact ⟨w, hw, hrsv0, hrsv1, ha, fun hop => (hiByte_reqA w).symm.trans (hcrc hop), hb, hrx⟩

/-! ### The frames of the pseudo-instructions and of the bare command words -/

/-- `ENC2` answers the two bytes of its command word in wire order (R61). -/
theorem exec_enc2 (a : Word) (s : State) :
    exec (.enc2 a) s = answers s { blank s with txlen := 2, tx := #v[hiByte a, loByte a, 0, 0, 0] } := rfl

/-- `ENC5` answers both words in wire order and the CRC of the argument (R62). -/
theorem exec_enc5 (a b : Word) (s : State) :
    exec (.enc5 a b) s = answers s { blank s with
      txlen := 5, tx := #v[hiByte a, loByte a, hiByte b, loByte b, crcOfWord b] } := rfl

theorem exec_enc5O2Lo0 (a b : Word) (s : State) : exec (.enc5O2Lo0 a b) s = answers s (o2Answer s 0 a b) :=
  congrArg (answers s) (o2Response_delivered s 0 a b (by decide))

theorem exec_enc5O2Lo21 (a b : Word) (s : State) : exec (.enc5O2Lo21 a b) s = answers s (o2Answer s 21 a b) :=
  congrArg (answers s) (o2Response_delivered s 21 a b (by decide))

/-- The CRC of the settings read's argument (95_test_vectors.md). -/
theorem crcOfWord_settingsReadArg : crcOfWord settingsReadArg = 0xD0 := by
  decide +kernel

/-- The settings read's `ENC5` answers the frame of its row (R47, R52). -/
theorem exec_settingsRead (s : State) :
    exec (.enc5 (commandWord .readScaleAndOffset) settingsReadArg) s
      = answers s { blank s with txlen := 5, tx := #v[0x36, 0x61, 0x36, 0x08, 0xD0] } := by
  rw [exec_enc5, crcOfWord_settingsReadArg]
  rfl

/-- A line that fits builds the frame its operation answers. -/
theorem buildsFrame_of_exec {l : AsmLine} {n : BitVec 3} {tx : Vector Byte 5} (hfits : l.fits = true)
    (hexec : ∀ s, exec l.instr s = answers s { blank s with txlen := n, tx := tx }) : BuildsFrame l n tx :=
  ⟨encode l.instr, l.instr, assemble_of_fits hfits, decode_encode l.instr, hexec⟩

/-- Settles O27: each expansion is the encoder's own line, and the encoder builds the frame of the row. -/
theorem pseudoInstructionsExpandToOneRequest : Obligations.PseudoInstructionsExpandToOneRequest := by
  refine ⟨rfl, buildsFrame_of_exec rfl (exec_enc2 _), rfl, buildsFrame_of_exec rfl (exec_enc2 _),
    rfl, buildsFrame_of_exec rfl exec_settingsRead, rfl, buildsFrame_of_exec rfl (exec_enc2 _),
    rfl, buildsFrame_of_exec rfl (exec_enc2 _), fun f => ⟨rfl, rfl⟩, fun f hlo hhi => ?_⟩
  have hf : signedFits f = true := (signedFits_iff f).mpr ⟨hlo, hhi⟩
  exact ⟨⟨_, _, assemble_of_fits (l := .cmdSetO2Lo0 f) hf, decode_encode _, exec_enc5O2Lo0 _ _⟩,
    ⟨_, _, assemble_of_fits (l := .cmdSetO2Lo21 f) hf, decode_encode _, exec_enc5O2Lo21 _ _⟩⟩

/-- Settles O18: each bare command word runs as the encoder of its pseudo-instruction (log entry 5). -/
theorem sensorCommandsBuildTheirFrames : Obligations.SensorCommandsBuildTheirFrames :=
  ⟨exec_enc2 0x0006, exec_enc2 0x3FF9, exec_settingsRead, exec_enc2 0x3608, exec_enc2 0x3603⟩

end Sys2Proof.Proofs
end

section
/-! Settles O49: what `ENC5` sends as argument and CRC is a field every check of a reply accepts (R44, R45, R46). -/

namespace Sys2Proof.Proofs

open Sys2Proof.Machine Sys2Proof.Stated

/-- Eight shifts of zero give zero: no bit is shifted out. -/
theorem crcShifts_zero (n : Nat) : crcShifts n 0 = 0 := by
  induction n with
  | zero => rfl
  | succ n ih => exact ih

/-- A byte fed into a CRC state equal to it leaves zero (R54). -/
theorem crc8Byte_self (c : Byte) : crc8Byte c c = 0 := by
  rw [crc8Byte, BitVec.xor_self]
  exact crcShifts_zero 8

/-- A sequence with its own CRC behind it has residue zero (R54). -/
theorem crc8_append_crc8 (bytes : List Byte) : crc8 (bytes ++ [crc8 bytes]) = 0 := by
  rw [crc8_snoc, crc8Byte_self]

/-- A field with its own CRC agrees with it (R46). -/
theorem fieldOk_crcOfWord (w : Word) : fieldOk (hiByte w) (loByte w) (crcOfWord w) = true := by
  rw [fieldOk, crcOfWord_eq, decide_eq_true rfl]

/-- A field with its own CRC is a good measurement unless that CRC is the sentinel (R66). -/
theorem measCheck_crcOfWord {w : Word} (h : crcOfWord w ≠ 0) :
    measCheck (hiByte w) (loByte w) (crcOfWord w) = .ok :=
  (measCheck_ok _ _ _).mpr ⟨h, (crcOfWord_eq w).symm⟩

/-- `VAL_SET` on three fields with their own CRCs reports `OK` and returns the fields (R69). -/
theorem exec_valSet_of_fields (u v w : Word) (s : State) :
    exec (.valSet (hiByte u) (loByte u) (crcOfWord u) (hiByte v) (loByte v) (crcOfWord v)
        (hiByte w) (loByte w) (crcOfWord w)) s
      = .next (s.deliver { Response.defaults with
          st := Status.ok.code, r0 := u, r1 := v, r2 := w,
          fl := settingsFlags true true true (decide (u = 0)) }) := by
  simp only [exec, execValSet, settingsResponse, fieldOk_crcOfWord, wireWord_hiByte_loByte]
  rfl

/-- `VAL_MEAS` on a field with its own CRC holds and returns the field (R67). -/
theorem exec_valMeas_of_field {w : Word} (h : crcOfWord w ≠ 0) (s : State) :
    exec (.valMeas (hiByte w) (loByte w) (crcOfWord w)) s
      = .next ((s.holdSample w).deliver (resultWord w)) := by
  simp only [exec, execValMeas, measCheck_crcOfWord h, wireWord_hiByte_loByte]

/-- Settles O49: the last three bytes of the frame are the argument in wire order and its CRC. -/
theorem encodedFieldsValidate : Obligations.EncodedFieldsValidate := by
  intro a b s
  refine ⟨_, _, exec_enc5 a b s, rfl, crc8_append_crc8 (wireBytes b), fun u => ?_, fun hcrc u => ?_⟩
  · exact ⟨_, _, exec_valSet_of_fields b b b u, rfl, rfl, rfl, rfl, rfl⟩
  · exact ⟨_, _, exec_valMeas_of_field hcrc u, rfl, rfl, rfl, rfl, rfl⟩

end Sys2Proof.Proofs
end

section
/-! Settles O46, O44, O45 and O5 to O9: the CRC and the codec operations (40_codec.md). A stream-safe request feeds
`ACC` exactly the byte it is said to feed, so a stream is a fold of `crc8Byte`. Only a byte equal to the CRC state leaves
zero, so the second byte of a word with CRC zero is told by the first. -/

namespace Sys2Proof.Proofs

open Sys2Proof.Machine Sys2Proof.Stated Sys2Proof.Laws

/-! ### A CRC stream -/

/-- Feeding a byte, or nothing, into the CRC state. -/
def feed (acc : Byte) (b : Option Byte) : Byte := b.elim acc (crc8Byte acc)

/-- `CRC_INIT` and `SRST` aside, an instruction writes `ACC` only by the byte it feeds (R57, R88). -/
theorem accAfter_of_streamSafe {i : Instr} (h : streamSafe i = true) (acc : Byte) :
    accAfter acc i = feed acc (streamByte i) := by
  cases i
  case crcInit | srst => cases h
  all_goals rfl

/-- The same for a request, judged by what it decodes to; a refused one feeds nothing (R79). -/
theorem registersAfter_acc_of_streamSafe {q : Request} (h : requestStreamSafe q = true)
    (r : Byte × (Sample × BitVec 1)) : (registersAfter r q).1 = feed r.1 (requestByte q) := by
  unfold requestStreamSafe at h
  unfold registersAfter requestByte
  cases hq : decode q with
  | instr i =>
    rw [hq] at h
    exact accAfter_of_streamSafe h r.1
  | reservedBits => rfl
  | unlistedCommand cmd => rfl

/-- Over a stream, `ACC` takes in the bytes fed, in order. -/
theorem foldl_registersAfter_acc_of_streamSafe (qs : List Request) (h : ∀ q ∈ qs, requestStreamSafe q = true) :
    ∀ r, (qs.foldl registersAfter r).1 = (qs.filterMap requestByte).foldl crc8Byte r.1 := by
  induction qs with
  | nil => exact fun _ => rfl
  | cons q qs ih =>
    intro r
    obtain ⟨hq, htail⟩ := List.forall_mem_cons.mp h
    rw [List.foldl_cons, ih htail, registersAfter_acc_of_streamSafe hq, List.filterMap_cons]
    cases requestByte q <;> rfl

/-- A stream from the seed leaves the CRC of the bytes fed (R57, R87). -/
theorem run_stream_of_seed (qs : List Request) (s : State) (rest : List Input)
    (hqs : ∀ q ∈ qs, Presentable q ∧ requestStreamSafe q = true) (hacc : s.acc = crcSeed)
    (hin : s.inputs = qs.map Input.present ++ rest) :
    ∃ t, core.run qs.length s = .next t ∧ t.inputs = rest ∧ t.acc = crc8 (qs.filterMap requestByte) := by
  obtain ⟨t, hrun, hint, ht⟩ := run_registers_of_presentable qs s rest (fun q hq => (hqs q hq).1) hin
  refine ⟨t, hrun, hint, ?_⟩
  calc t.acc = (qs.foldl registersAfter (registers s)).1 := congrArg Prod.fst ht
    _ = (qs.filterMap requestByte).foldl crc8Byte s.acc :=
      foldl_registersAfter_acc_of_streamSafe qs (fun q hq => (hqs q hq).2) (registers s)
    _ = crc8 (qs.filterMap requestByte) := by rw [hacc, crc8]

/-- Settles O46: the request before the stream leaves the seed in `ACC`, and the stream starts from it. -/
theorem crcStreamComputesTheCrc : Obligations.CrcStreamComputesTheCrc := by
  intro qs s rest hqs
  refine ⟨fun q0 hq0 hin => ?_, run_stream_of_seed qs s rest hqs⟩
  have start (i : Instr) (hd : decode q0 = .instr i) (hseed : accAfter s.acc i = crcSeed) :
      ∃ t, core.run (qs.length + 1) s = .next t ∧ t.inputs = rest ∧ t.acc = crc8 (qs.filterMap requestByte) := by
    rw [run_succ_of_next qs.length (step_eq_servedState hin hd)]
    exact run_stream_of_seed qs _ rest hqs hseed rfl
  exact hq0.elim (start .crcInit · rfl) (start .srst · rfl)

/-! ### The laws of the CRC -/

/-- Settles O44: law (c) is the CRC of the settings read's argument. -/
theorem crcOfASequenceAndItsLaws : Obligations.CrcOfASequenceAndItsLaws :=
  ⟨crc8_empty, crc8_snoc, crc8_append_crc8, crcOfWord_settingsReadArg⟩

/-- A shift loses nothing: a bit shifted out sets bit 0, by the polynomial. -/
theorem crcShift_eq_zero_iff (c : Byte) : crcShift c = 0 ↔ c = 0 := by
  refine ⟨fun h => ?_, by rintro rfl; rfl⟩
  cases hmsb : c.msb with
  | true =>
    rw [crcShift, if_pos hmsb] at h
    have hbit : ((c <<< 1) ^^^ crcPoly).getLsbD 0 = true := by
      rw [BitVec.getLsbD_xor, BitVec.getLsbD_shiftLeft]
      rfl
    rw [h] at hbit
    cases hbit
  | false =>
    rw [crcShift, if_neg (by simp [hmsb])] at h
    have hlt : 2 * c.toNat < 2 ^ 8 := BitVec.msb_eq_false_iff_two_mul_lt.mp hmsb
    have hzero : (c <<< 1).toNat = 0 := congrArg BitVec.toNat h
    rw [BitVec.toNat_shiftLeft, Nat.shiftLeft_eq] at hzero
    apply BitVec.eq_of_toNat_eq
    change c.toNat = 0
    omega

theorem crcShifts_eq_zero_iff (n : Nat) (c : Byte) : crcShifts n c = 0 ↔ c = 0 := by
  induction n generalizing c with
  | zero => rfl
  | succ n ih => exact (ih (crcShift c)).trans (crcShift_eq_zero_iff c)

/-- Only a byte equal to the CRC state leaves zero. -/
theorem crc8Byte_eq_zero_iff (c b : Byte) : crc8Byte c b = 0 ↔ c = b := by
  rw [crc8Byte, crcShifts_eq_zero_iff]
  exact BitVec.xor_eq_zero_iff

/-- A word has CRC zero exactly when its second byte is the CRC of its first. -/
theorem crcOfWord_eq_zero_iff (w : Word) : crcOfWord w = 0 ↔ crc8 [hiByte w] = loByte w :=
  crc8Byte_eq_zero_iff (crc8 [hiByte w]) (loByte w)

/-- The word of CRC zero with a given first byte. -/
def zeroCrcWord (b : Byte) : Word := wireWord b (crc8 [b])

theorem zeroCrcWord_injective : Function.Injective zeroCrcWord := by
  intro b b' h
  rw [← hiByte_wireWord b (crc8 [b]), ← hiByte_wireWord b' (crc8 [b'])]
  exact congrArg hiByte h

/-- These are all the words of CRC zero. -/
theorem crcOfWord_eq_zero_iff_exists (w : Word) : crcOfWord w = 0 ↔ ∃ b, zeroCrcWord b = w := by
  rw [crcOfWord_eq_zero_iff]
  constructor
  · intro h
    exact ⟨hiByte w, by rw [zeroCrcWord, h, wireWord_hiByte_loByte]⟩
  · rintro ⟨b, rfl⟩
    rw [zeroCrcWord, hiByte_wireWord, loByte_wireWord]

/-- The same words as numbers, by the number of the first byte. -/
def zeroCrcNumber (k : Nat) : Nat := (zeroCrcWord (BitVec.ofNat 8 k)).toNat

theorem zeroCrcNumber_injOn : Set.InjOn zeroCrcNumber (Finset.range 256 : Finset Nat) := by
  intro k hk k' hk' h
  have hbytes : BitVec.ofNat 8 k = BitVec.ofNat 8 k' := zeroCrcWord_injective (BitVec.eq_of_toNat_eq h)
  have hmod : k % 256 = k' % 256 := congrArg BitVec.toNat hbytes
  rwa [Nat.mod_eq_of_lt (Finset.mem_range.mp hk), Nat.mod_eq_of_lt (Finset.mem_range.mp hk')] at hmod

/-- A number below 65,536 is that of a word of CRC zero exactly when some first byte gives it. -/
theorem filter_crcOfWord_eq_zero :
    (Finset.range 65536).filter (fun n => crcOfWord (BitVec.ofNat 16 n) = 0)
      = (Finset.range 256).image zeroCrcNumber := by
  ext n
  simp only [Finset.mem_filter, Finset.mem_range, Finset.mem_image, crcOfWord_eq_zero_iff_exists, zeroCrcNumber]
  constructor
  · rintro ⟨hn, b, hb⟩
    refine ⟨b.toNat, b.isLt, ?_⟩
    rw [BitVec.ofNat_toNat, BitVec.setWidth_eq, hb, BitVec.toNat_ofNat, Nat.mod_eq_of_lt hn]
  · rintro ⟨k, -, rfl⟩
    exact ⟨BitVec.isLt _, BitVec.ofNat 8 k, by rw [BitVec.ofNat_toNat, BitVec.setWidth_eq]⟩

/-- Settles O45: one word of CRC zero for each of the 256 first bytes. -/
theorem zeroCrcWordsNumber256 : Obligations.ZeroCrcWordsNumber256 :=
  calc _ = ((Finset.range 256).image zeroCrcNumber).card := congrArg Finset.card filter_crcOfWord_eq_zero
    _ = (Finset.range 256).card := Finset.card_image_of_injOn zeroCrcNumber_injOn
    _ = 256 := Finset.card_range 256

/-! ### The codec operations -/

/-- A legal word decodes to the operation of its code on its operand fields (R37, R38). -/
theorem decode_of_legalWord {op : BitVec 4} {w : ReqWord} (h : LegalWord op w) :
    decode (.word w) = .instr (operation op (reqA w) (reqB w) (window w)) := by
  obtain ⟨rfl, h0, h1⟩ := h
  exact decode_of_reserved_zero ((reservedNonzero_eq_false w).mpr ⟨h0, h1⟩)

/-- `SWAP16` answers the word of the operand's bytes in the other order (R55). -/
theorem exec_swap16 (a : Word) (s : State) :
    exec (.swap16 a) s = answers s { blank s with r0 := wireWord (loByte a) (hiByte a) } :=
  exec_eq_servedState (.swap16 a) s

/-- Settles O5. -/
theorem swapReversesTheBytes : Obligations.SwapReversesTheBytes := by
  refine ⟨fun w h => decode_of_legalWord h, exec_swap16, fun a h s => ?_, fun a s => ?_⟩
  · have hbytes : loByte a = hiByte a := h
    have hself : wireWord (loByte a) (hiByte a) = a :=
      calc wireWord (loByte a) (hiByte a) = wireWord (hiByte a) (loByte a) := by rw [hbytes]
        _ = a := wireWord_hiByte_loByte a
    rw [exec_swap16, hself]
  · change exec (.swap16 (wireWord (loByte a) (hiByte a))) s = _
    rw [exec_swap16, loByte_wireWord, hiByte_wireWord, wireWord_hiByte_loByte]

/-- Settles O6. -/
theorem crcInitSetsTheSeed : Obligations.CrcInitSetsTheSeed :=
  ⟨fun _ h => decode_of_legalWord h, exec_eq_servedState .crcInit⟩

/-- `CRC_UPD` feeds the low byte of its operand and answers the new `ACC` (R57). -/
theorem exec_crcUpd (a : Word) (s : State) :
    exec (.crcUpd a) s = answers { s with acc := crc8Byte s.acc (loByte a) }
      { blank s with r0 := zext16 (crc8Byte s.acc (loByte a)) } :=
  exec_eq_servedState (.crcUpd a) s

/-- Settles O7. -/
theorem crcUpdFeedsOneByte : Obligations.CrcUpdFeedsOneByte := by
  refine ⟨fun w h => decode_of_legalWord h, exec_crcUpd, fun a b h s => ?_, fun s a h => ?_⟩
  · have hlow : loByte a = loByte b := h
    rw [exec_crcUpd, exec_crcUpd, hlow]
  · have hlow : loByte a = s.acc := h
    rw [exec_crcUpd, hlow, crc8Byte_self]
    rfl

/-- Settles O8. -/
theorem crcReadShowsTheAccumulator : Obligations.CrcReadShowsTheAccumulator :=
  ⟨fun _ h => decode_of_legalWord h, exec_eq_servedState .crcRead⟩

/-- Settles O9. -/
theorem crc2IsTheCrcOfTheWordInWireOrder : Obligations.Crc2IsTheCrcOfTheWordInWireOrder :=
  ⟨fun _ h => decode_of_legalWord h, fun a => exec_eq_servedState (.crc2 a)⟩

end Sys2Proof.Proofs
end

section
/-! Settles O12, O13, O50, O10, O11 and O51: the command encoder (41_encoder.md). A clamped fraction lies between bounds
that are words, so it is sent as the unsigned word of its own value. -/

namespace Sys2Proof.Proofs

open Sys2Proof.Machine Sys2Proof.Stated

/-! ### The clamp -/

theorem le_clamp {v lo hi : Int} (h : lo ≤ hi) : lo ≤ clamp v lo hi :=
  le_min (le_max_right v lo) h

theorem clamp_le (v lo hi : Int) : clamp v lo hi ≤ hi := min_le_right (max v lo) hi

/-- The argument word keeps every value that is a word (R60). -/
theorem toNat_argWord {f : Int} (h : InWord f) : ((argWord f).toNat : Int) = f := toNat_asmWord h

/-- Between bounds that are words, a clamped value is a word. -/
theorem inWord_clamp {lo hi : Int} (v : Int) (hlo : 0 ≤ lo) (h : lo ≤ hi) (hhi : hi ≤ 0xFFFF) :
    InWord (clamp v lo hi) :=
  ⟨hlo.trans (le_clamp h), (clamp_le v lo hi).trans hhi⟩

/-- Settles O50: the bounds 0..100 and 21..100 are words, so the clamped fraction is one. -/
theorem clampedFractionKeepsItsValue : Obligations.ClampedFractionKeepsItsValue := by
  refine ⟨fun v lo hi h => ⟨le_clamp h, clamp_le v lo hi, clamp_inside, clamp_below h, clamp_above⟩, fun b lo hlo => ?_⟩
  have hbounds : 0 ≤ lo ∧ lo ≤ 100 := by omega
  obtain ⟨hnonneg, hle⟩ := hbounds
  exact toNat_argWord (inWord_clamp b.toInt hnonneg hle (by decide))

/-! ### The encoder operations -/

/-- Settles O12. -/
theorem enc5O2Lo0ClampsToZeroTo100 : Obligations.Enc5O2Lo0ClampsToZeroTo100 :=
  ⟨fun _ h => decode_of_legalWord h, exec_enc5O2Lo0⟩

/-- Settles O13. -/
theorem enc5O2Lo21ClampsTo21To100 : Obligations.Enc5O2Lo21ClampsTo21To100 :=
  ⟨fun _ h => decode_of_legalWord h, exec_enc5O2Lo21⟩

/-- Settles O10. -/
theorem enc2BuildsTheTwoByteFrame : Obligations.Enc2BuildsTheTwoByteFrame :=
  ⟨fun _ h => decode_of_legalWord h, exec_enc2⟩

/-- Settles O11. -/
theorem enc5BuildsTheFiveByteFrame : Obligations.Enc5BuildsTheFiveByteFrame :=
  ⟨fun _ h => decode_of_legalWord h, exec_enc5⟩

/-- Settles O51: each encoder's answer has status `OK` and starts with the command word, and only `ENC2` sends 2 bytes. -/
theorem encodersAcceptEveryCommandWord : Obligations.EncodersAcceptEveryCommandWord := by
  intro a b s i hi
  simp only [List.mem_cons, List.not_mem_nil, or_false] at hi
  rcases hi with rfl | rfl | rfl | rfl
  · exact ⟨_, _, exec_enc2 a s, rfl, rfl, rfl, rfl, (if_pos rfl).symm⟩
  · exact ⟨_, _, exec_enc5 a b s, rfl, rfl, rfl, rfl, (if_neg Instr.noConfusion).symm⟩
  · exact ⟨_, _, exec_enc5O2Lo0 a b s, rfl, rfl, rfl, rfl, (if_neg Instr.noConfusion).symm⟩
  · exact ⟨_, _, exec_enc5O2Lo21 a b s, rfl, rfl, rfl, rfl, (if_neg Instr.noConfusion).symm⟩

end Sys2Proof.Proofs
end

section
/-! Settles O16, O48, O14 and O15: the frame validator (42_validator.md). A reply that is not good is answered with the
status of `measCheck` alone, so the statements about measurement replies turn on which of its three answers it gives. -/

namespace Sys2Proof.Proofs

open Sys2Proof.Machine Sys2Proof.Stated

/-! ### The settings reply -/

/-- A word is zero when both of its bytes are. -/
theorem wireWord_eq_zero_iff (a b : Byte) : wireWord a b = 0 ↔ a = 0 ∧ b = 0 := by
  constructor
  · intro h
    exact ⟨(hiByte_wireWord a b).symm.trans (congrArg hiByte h),
      (loByte_wireWord a b).symm.trans (congrArg loByte h)⟩
  · rintro ⟨rfl, rfl⟩
    rfl

theorem fieldOk_iff (a b c : Byte) : fieldOk a b c = true ↔ crc8 [a, b] = c := decide_eq_true_iff

/-- `VAL_SET` sets none of the flag bits 7:4 (R20, R69). -/
theorem settingsFlags_high_zero : ∀ f0 f1 f2 sz : Bool, (settingsFlags f0 f1 f2 sz).extractLsb' 4 4 = 0 := by
  decide

/-- The flags of a settings reply: one for each field that agrees with its CRC, and one for a scale of zero (R69). -/
theorem settingsResponse_fl_bits (x0 x1 x2 x3 x4 x5 x6 x7 x8 : Byte) :
    let fl := (settingsResponse x0 x1 x2 x3 x4 x5 x6 x7 x8).fl
    (fl.getLsbD 0 = true ↔ crc8 [x0, x1] = x2) ∧ (fl.getLsbD 1 = true ↔ crc8 [x3, x4] = x5) ∧
    (fl.getLsbD 2 = true ↔ crc8 [x6, x7] = x8) ∧ (fl.getLsbD 3 = true ↔ x0 = 0 ∧ x1 = 0) ∧
    fl.extractLsb' 4 4 = 0 := by
  obtain ⟨h0, h1, h2, hscale, -, -⟩ := flagByte_bits (fieldOk x0 x1 x2) (fieldOk x3 x4 x5) (fieldOk x6 x7 x8)
    (decide (wireWord x0 x1 = 0)) false
  refine ⟨?_, ?_, ?_, ?_, settingsFlags_high_zero ..⟩
  · exact (Bool.eq_iff_iff.mp h0).trans (fieldOk_iff ..)
  · exact (Bool.eq_iff_iff.mp h1).trans (fieldOk_iff ..)
  · exact (Bool.eq_iff_iff.mp h2).trans (fieldOk_iff ..)
  · exact (Bool.eq_iff_iff.mp hscale).trans (decide_eq_true_iff.trans (wireWord_eq_zero_iff x0 x1))

/-- The status of a settings reply is `OK` when every field agrees with its CRC, and `CRC_ERR` else (R69). -/
theorem settingsResponse_st (x0 x1 x2 x3 x4 x5 x6 x7 x8 : Byte) :
    (settingsResponse x0 x1 x2 x3 x4 x5 x6 x7 x8).st
      = if crc8 [x0, x1] = x2 ∧ crc8 [x3, x4] = x5 ∧ crc8 [x6, x7] = x8 then 0 else 1 := by
  simp only [settingsResponse, Bool.and_eq_true, fieldOk_iff, and_assoc]
  rfl

/-- Settles O16. -/
theorem valSetParsesAndChecksEachField : Obligations.ValSetParsesAndChecksEachField := by
  refine ⟨fun w h => decode_of_legalWord h, fun x0 x1 x2 x3 x4 x5 x6 x7 x8 s => ?_⟩
  obtain ⟨h0, h1, h2, hscale, hhigh⟩ := settingsResponse_fl_bits x0 x1 x2 x3 x4 x5 x6 x7 x8
  exact ⟨_, _, exec_eq_servedState (.valSet x0 x1 x2 x3 x4 x5 x6 x7 x8) s, h0, h1, h2, hscale, hhigh,
    settingsResponse_st ..⟩

/-! ### The measurement reply -/

/-- Only `OK` has the number 0 (R78). -/
theorem status_code_eq_zero_iff (st : Status) : st.code = 0 ↔ st = .ok := by
  cases st <;> decide

section
variable {a b c : Byte} {st : Status} (s : State)

/-- `VAL_MEAS` raises the status of a reply that is not good (R67). -/
theorem exec_valMeas_of_bad (h : measCheck a b c = st) (hst : st ≠ .ok) :
    exec (.valMeas a b c) s = answers s { blank s with st := st.code } := by
  simp only [exec, execValMeas, h]
  cases st with
  | ok => exact absurd rfl hst
  | _ => rfl

/-- `VAL_DISC` raises the status of a reply that is not good, as `VAL_MEAS` does (R68). -/
theorem exec_valDisc_of_bad (h : measCheck a b c = st) (hst : st ≠ .ok) :
    exec (.valDisc a b c) s = answers s { blank s with st := st.code } := by
  simp only [exec, execValDisc, h]
  cases st with
  | ok => exact absurd rfl hst
  | _ => rfl

/-- `VAL_MEAS` holds the sign-extended sample of a good reply and shows it (R67). -/
theorem exec_valMeas_of_good (h : measCheck a b c = .ok) :
    exec (.valMeas a b c) s = answers { s with smp := sext32 (wireWord a b), hv := 1 }
      { blank s with r0 := wireWord a b, smp := sext32 (wireWord a b), hv := 1 } := by
  simp only [exec, execValMeas, h]
  rfl

/-- `VAL_DISC` reports the sample of a good reply and writes no register (R68). -/
theorem exec_valDisc_of_good (h : measCheck a b c = .ok) :
    exec (.valDisc a b c) s = answers s { blank s with r0 := wireWord a b } := by
  simp only [exec, execValDisc, h]
  rfl

end

/-- Where the CRC of the sample is zero no CRC byte is good: a nonzero one does not match, the zero one is the sentinel
(R70). -/
theorem measCheck_ne_ok_of_crc8_eq_zero {a b : Byte} (h : crc8 [a, b] = 0) (c : Byte) : measCheck a b c ≠ .ok := by
  rw [Ne, measCheck_ok, h]
  exact fun ⟨hc, hcrc⟩ => hc hcrc.symm

/-- Settles O48. -/
theorem sentinelDiscardsZeroCrcSamples : Obligations.SentinelDiscardsZeroCrcSamples := by
  intro a b s hzero
  refine ⟨fun c => ?_, exec_valMeas_of_bad s ((measCheck_noData a b 0x00).mpr rfl) (by decide)⟩
  have hbad : measCheck a b c ≠ .ok := measCheck_ne_ok_of_crc8_eq_zero hzero c
  exact ⟨_, _, exec_valMeas_of_bad s rfl hbad, rfl, rfl, rfl, mt (status_code_eq_zero_iff _).mp hbad⟩

/-- Settles O14, by the three answers of the check. -/
theorem valMeasHoldsOnlyGoodSamples : Obligations.ValMeasHoldsOnlyGoodSamples := by
  refine ⟨fun w h => decode_of_legalWord h, fun a b s => ?_, fun a b c s hc hcrc => ?_, fun a b c s hc hcrc => ?_⟩
  · exact exec_valMeas_of_bad s ((measCheck_noData a b 0x00).mpr rfl) (by decide)
  · exact exec_valMeas_of_bad s ((measCheck_crcErr a b c).mpr ⟨hc, hcrc⟩) (by decide)
  · exact exec_valMeas_of_good s ((measCheck_ok a b c).mpr ⟨hc, hcrc⟩)

/-- Settles O15, by the three answers of the check. -/
theorem valDiscReportsAndNeverStores : Obligations.ValDiscReportsAndNeverStores := by
  refine ⟨fun w h => decode_of_legalWord h, fun a b s => ?_, fun a b c s hc hcrc => ?_, fun a b c s hc hcrc => ?_⟩
  · exact exec_valDisc_of_bad s ((measCheck_noData a b 0x00).mpr rfl) (by decide)
  · exact exec_valDisc_of_bad s ((measCheck_crcErr a b c).mpr ⟨hc, hcrc⟩) (by decide)
  · exact exec_valDisc_of_good s ((measCheck_ok a b c).mpr ⟨hc, hcrc⟩)

end Sys2Proof.Proofs
end

section
/-! Settles O3 and O4: the control operations (43_control.md). Both answer the defaults; the answer shows the held sample
as it stands after the step, so `NOP` reads it and `SRST` shows its reset value. -/

namespace Sys2Proof.Proofs

open Sys2Proof.Machine Sys2Proof.Stated

/-- `NOP` answers the defaults with the held sample, and writes nothing (R71). -/
theorem exec_nop (s : State) : exec .nop s = answers s (blank s) :=
  exec_eq_servedState .nop s

/-- `SRST` resets the registers and answers the defaults as the reset registers show them (R72). -/
theorem exec_srst (s : State) : exec .srst s = answers s.resetRegs (blank s.resetRegs) :=
  exec_eq_servedState .srst s

/-- Settles O3. -/
theorem nopAnswersDefaultsOnly : Obligations.NopAnswersDefaultsOnly :=
  ⟨fun _ h => decode_of_legalWord h, exec_nop⟩

/-- Settles O4. -/
theorem srstResetsTheBlock : Obligations.SrstResetsTheBlock :=
  ⟨fun _ h => decode_of_legalWord h, exec_srst⟩

end Sys2Proof.Proofs
end

section
/-! Settles O32, O33, O34 and O30: the status conditions (60_exceptions.md). A request word is answered in one of three
ways: a status is raised, `VAL_SET` reports on its reply, or the operation completes with `OK`. They are told apart
once, in the order of R80, and the statements about statuses are read off them. -/

namespace Sys2Proof.Proofs

open Sys2Proof.Machine Sys2Proof.Stated Sys2Proof.Laws

/-! ### The priority, in the model's own terms -/

/-- The answer of `measCheck` as a number: the sentinel comes before the CRC (R66, R78). -/
theorem measCheck_code (a b c : Byte) :
    (measCheck a b c).code = if c = 0 then 2 else if crc8 [a, b] ≠ c then 1 else 0 := by
  unfold measCheck noDataCrc
  split_ifs <;> rfl

/-- The status of a settings reply in the window `x` of a request (R69). -/
def settingsStatus (x : Fin 9 → Byte) : BitVec 4 :=
  (settingsResponse (x 0) (x 1) (x 2) (x 3) (x 4) (x 5) (x 6) (x 7) (x 8)).st

theorem settingsStatus_eq (x : Fin 9 → Byte) : settingsStatus x =
    if crc8 [x 0, x 1] = x 2 ∧ crc8 [x 3, x 4] = x 5 ∧ crc8 [x 6, x 7] = x 8 then 0 else 1 :=
  settingsResponse_st ..

/-- A settings reply is never reported as `RESERVED_BITS` (R69). -/
theorem settingsStatus_ne_reservedBits (x : Fin 9 → Byte) : settingsStatus x ≠ 4 := by
  rw [settingsStatus_eq]
  split_ifs <;> decide

theorem reservedNonzero_eq_true (w : ReqWord) : reservedNonzero w = true ↔ reqRsv0 w ≠ 0 ∨ reqRsv1 w ≠ 0 := by
  rw [reservedNonzero, Bool.or_eq_true, bne_iff_ne, bne_iff_ne]

/-- The priority of R80 by the checks the model makes: operation code, reserved fields, then the operation's own. -/
theorem statusOf_eq (w : ReqWord) : statusOf w =
    if reqOp w = 0xE ∨ reqOp w = 0xF then Status.illegalOp.code
    else if reservedNonzero w = true then Status.reservedBits.code
    else if reqOp w = 0xB ∨ reqOp w = 0xD then (measCheck (window w 0) (window w 1) (window w 2)).code
    else if reqOp w = 0xC then settingsStatus (window w)
    else Status.ok.code := by
  simp only [reservedNonzero_eq_true, measCheck_code, settingsStatus_eq]
  rfl

/-! ### The operations and the status they answer -/

/-- Codes 0xB and 0xD check a measurement reply in the first three bytes of the window (R37). -/
theorem operationOf_of_measurement {w : ReqWord} (h : reqOp w = 0xB ∨ reqOp w = 0xD) :
    operationOf w = .valMeas (window w 0) (window w 1) (window w 2) ∨
      operationOf w = .valDisc (window w 0) (window w 1) (window w 2) := by
  unfold operationOf
  rcases h with h | h <;> rw [h]
  · exact .inl rfl
  · exact .inr rfl

/-- Code 0xC checks the settings reply in the window (R37). -/
theorem operationOf_of_settings {w : ReqWord} (h : reqOp w = 0xC) :
    operationOf w = .valSet (window w 0) (window w 1) (window w 2) (window w 3) (window w 4) (window w 5)
      (window w 6) (window w 7) (window w 8) := by
  rw [operationOf, h]
  rfl

/-- The operations before the validators check nothing and answer `OK` (R55 to R65, R71, R72). -/
theorem answerOf_st_of_unchecked {op : BitVec 4} (h : op.toNat < 0xB) (acc : Byte) (a b : Word) (x : Fin 9 → Byte) :
    (answerOf acc (operation op a b x)).st = 0 := by
  unfold operation
  interval_cases op.toNat <;> rfl

/-- A measurement reply that is not good raises its status, whichever of the two operations checks it (R67, R68). -/
theorem exec_measurement_of_bad {i : Instr} {a b c : Byte} (hi : i = .valMeas a b c ∨ i = .valDisc a b c)
    (hbad : measCheck a b c ≠ .ok) (s : State) :
    exec i s = answers s { blank s with st := (measCheck a b c).code } := by
  rcases hi with rfl | rfl
  · exact exec_valMeas_of_bad s rfl hbad
  · exact exec_valDisc_of_bad s rfl hbad

/-- A good measurement reply is answered with `OK`, whichever of the two operations checks it (R67, R68). -/
theorem answerOf_st_of_good {i : Instr} {a b c : Byte} (hi : i = .valMeas a b c ∨ i = .valDisc a b c)
    (hgood : measCheck a b c = .ok) (acc : Byte) : (answerOf acc i).st = 0 := by
  have hmeas : (measAnswer a b c).st = 0 := by
    rw [measAnswer, hgood]
    rfl
  rcases hi with rfl | rfl <;> exact hmeas

/-! ### The three ways a request word is answered -/

/-- How a request word is answered, with what that says of its status. -/
inductive WordAnswer (s : State) (w : ReqWord) (rest : List Input) : Prop where
  /-- A status is raised: no register is written, and the response has its defaults (R79). -/
  | raised (h : step s = answers { s with inputs := rest } { blank s with st := statusOf w })
  /-- `VAL_SET` writes no register and reports on the fields it returns (R69). -/
  | settings (hop : reqOp w = 0xC) (hst : statusOf w ≠ 4) {r : Response}
    (h : step s = answers { s with inputs := rest } r) (hr : r.st = statusOf w)
  /-- The operation completes with `OK`. -/
  | ok (hst : statusOf w = 0) {t : State} {r : Response} (h : step s = .next t) (hrsp : t.rsp = some r) (hr : r.st = 0)

/-- An operation with zero reserved fields that answers `OK`. -/
theorem wordAnswer_of_ok {s : State} {w : ReqWord} {rest : List Input} (h : Presents s (.word w) rest)
    (hrsv : reservedNonzero w = false) (hst : statusOf w = 0) (hok : (answerOf s.acc (operationOf w)).st = 0) :
    WordAnswer s w rest :=
  .ok hst (step_eq_servedState h (decode_of_reserved_zero hrsv)) (servedState_rsp _ _) hok

/-- Every request word is answered in one of the three ways, by the first condition of R80 that applies. -/
theorem wordAnswer_of_presents {s : State} {w : ReqWord} {rest : List Input} (h : Presents s (.word w) rest) :
    WordAnswer s w rest := by
  have hst := statusOf_eq w
  split_ifs at hst with hillegal hreserved hmeas hset
  · refine .raised ?_
    rw [hst]
    rcases hillegal with hE | hF
    · exact step_eq_servedState h (decode_of_illegalE hE)
    · exact step_eq_servedState h (decode_of_illegalF hF)
  · obtain ⟨hE, hF⟩ := not_or.mp hillegal
    refine .raised ?_
    rw [hst]
    exact step_of_reserved h (decode_of_reserved_nonzero hE hF hreserved)
  · have hzero : reservedNonzero w = false := eq_false_of_ne_true hreserved
    have hop := operationOf_of_measurement hmeas
    by_cases hgood : measCheck (window w 0) (window w 1) (window w 2) = .ok
    · exact wordAnswer_of_ok h hzero (hst.trans ((status_code_eq_zero_iff _).mpr hgood))
        (answerOf_st_of_good hop hgood s.acc)
    · refine .raised ?_
      rw [hst, step_of_instr h (decode_of_reserved_zero hzero)]
      exact exec_measurement_of_bad hop hgood _
  · have hdecode := decode_of_reserved_zero (eq_false_of_ne_true hreserved)
    rw [operationOf_of_settings hset] at hdecode
    refine .settings hset ?_ (step_eq_servedState h hdecode) hst.symm
    rw [hst]
    exact settingsStatus_ne_reservedBits (window w)
  · obtain ⟨hE, hF⟩ := not_or.mp hillegal
    obtain ⟨hB, hD⟩ := not_or.mp hmeas
    have hunchecked : (reqOp w).toNat < 0xB := by bv_omega
    exact wordAnswer_of_ok h (eq_false_of_ne_true hreserved) hst (answerOf_st_of_unchecked hunchecked ..)

/-! ### The statements -/

/-- Settles O32. -/
theorem statusFollowsThePriority : Obligations.StatusFollowsThePriority := by
  intro s w rest hin
  cases wordAnswer_of_presents hin with
  | raised h => exact ⟨_, _, h, rfl, rfl⟩
  | settings _ _ h hr => exact ⟨_, _, h, rfl, hr⟩
  | ok hst h hrsp hr => exact ⟨_, _, h, hrsp, hr.trans hst.symm⟩

/-- Settles O33: `VAL_SET`'s own report is what the premise leaves out. -/
theorem raisedStatusChangesNoRegister : Obligations.RaisedStatusChangesNoRegister := by
  intro s w rest hin hfailed hraised
  cases wordAnswer_of_presents hin with
  | raised h => exact h
  | settings hop hst => exact absurd hraised (not_or.mpr ⟨not_not_intro hop, hst⟩)
  | ok hst => exact absurd hst hfailed

/-- Settles O34: a failed request leaves nothing but its response, which no step reads. -/
theorem failedRequestLeavesNoTrace : Obligations.FailedRequestLeavesNoTrace := by
  intro s w rest hin hfailed
  cases wordAnswer_of_presents hin with
  | raised h => exact ⟨_, h, step_forgets_rsp _ _⟩
  | settings _ _ h _ => exact ⟨_, h, step_forgets_rsp { s with inputs := rest } _⟩
  | ok hst => exact absurd hst hfailed

/-- Settles O30: a request word is refused for its reserved fields or runs an instruction, and both are answered. -/
theorem everyRequestCompletesWithOneResponse : Obligations.EveryRequestCompletesWithOneResponse := by
  intro s w rest hin
  cases hd : decode (.word w) with
  | instr i => exact ⟨_, _, step_eq_servedState hin hd, rfl, servedState_rsp i _, rfl, rfl⟩
  | reservedBits => exact ⟨_, _, step_of_reserved hin hd, rfl, raise_rsp _ _, rfl, rfl⟩
  | unlistedCommand cmd => exact absurd hd (presentable_word w cmd)

end Sys2Proof.Proofs
end

section
/-! Settles O54, O52, O55, O56 and O2: the reset event and the requester's duties (70_reset_and_hazards.md). The block
reads no duty, so each statement joins what a dutiful requester has presented to what the block answers to that. -/

namespace Sys2Proof.Proofs

open Sys2Proof.Machine Sys2Proof.Stated Sys2Proof.Laws

/-! ### The command duty: frame shapes and bounds (R90, item 3) -/

/-- The number of bytes of a command frame (R43, R44). -/
def frameLength : FrameShape → BitVec 3
  | .cmd2 => 2
  | .cmd5 => 5

section
variable {a b : Word} {i : Instr}

/-- An encoder that keeps the shape duty answers a frame of the length R47 gives its command word. -/
theorem answerOf_txlen_of_keepsTableShape (hi : i ∈ [Instr.enc2 a, .enc5 a b, .enc5O2Lo0 a b, .enc5O2Lo21 a b])
    (hkeep : keepsTableShape i = true) {shape : FrameShape} (hshape : tableShape a = some shape) (acc : Byte) :
    (answerOf acc i).txlen = frameLength shape := by
  simp only [List.mem_cons, List.not_mem_nil, or_false] at hi
  rcases hi with rfl | rfl | rfl | rfl <;> rw [keepsTableShape, hshape] at hkeep
  · cases shape with
    | cmd2 => rfl
    | cmd5 => exact absurd hkeep (by decide)
  all_goals
    cases shape with
    | cmd2 => exact absurd hkeep (by decide)
    | cmd5 => rfl

/-- An encoder that keeps both halves of the duty sends an O2 command with the bound of the requester's choice: the
shape shuts out `ENC2`, the bound shuts out `ENC5` and the other O2 encoder. -/
theorem exec_of_keepsO2Bound (hi : i ∈ [Instr.enc2 a, .enc5 a b, .enc5O2Lo0 a b, .enc5O2Lo21 a b])
    (hshape : keepsTableShape i = true) (hbound : keepsO2Bound i = true)
    (ho2 : i = .enc5O2Lo0 a b ∨ i = .enc5O2Lo21 a b ∨ isO2Command a = true) (s : State) :
    exec i s = answers s (o2Answer s (openBound a) a b) := by
  simp only [List.mem_cons, List.not_mem_nil, or_false] at hi
  rcases hi with rfl | rfl | rfl | rfl
  · have hcmd : isO2Command a = true := by simpa using ho2
    rw [keepsTableShape, tableShape_of_isO2Command hcmd] at hshape
    exact absurd hshape (by decide)
  · have hcmd : isO2Command a = true := by simpa using ho2
    rw [keepsO2Bound, hcmd] at hbound
    exact absurd hbound (by decide)
  · have hlo : openBound a = 0 := by rw [openBound, eq_of_beq hbound]
    rw [hlo, exec_enc5O2Lo0]
  · have hlo : openBound a = 21 := by rw [openBound, eq_of_beq hbound]
    rw [hlo, exec_enc5O2Lo21]

end

/-- The words R47 binds to the 2-byte frame. -/
theorem tableShape_of_twoByteWord {a : Word} (h : a ∈ [(0x0006 : Word), 0x3FF9, 0x3608, 0x3603]) :
    tableShape a = some .cmd2 := by
  simp only [List.mem_cons, List.not_mem_nil, or_false] at h
  rcases h with rfl | rfl | rfl | rfl <;> rfl

/-- The words R47 binds to the 5-byte frame. -/
theorem tableShape_of_fiveByteWord {a : Word} (h : a ∈ [(0x3661 : Word), 0xE17D]) : tableShape a = some .cmd5 := by
  simp only [List.mem_cons, List.not_mem_nil, or_false] at h
  rcases h with rfl | rfl <;> rfl

/-- A presentation that keeps the command duty and runs an instruction keeps both halves of the duty for it. -/
theorem keepsCommandDuty_of_instr {p : Presentation} {i : Instr} (hkeep : p.keepsCommandDuty = true)
    (hd : decode p.request = .instr i) : keepsTableShape i = true ∧ keepsO2Bound i = true := by
  rw [Presentation.keepsCommandDuty, hd] at hkeep
  exact Bool.and_eq_true_iff.mp hkeep

/-- Settles O54. -/
theorem commandDutyGivesTheChosenBound : Obligations.CommandDutyGivesTheChosenBound := by
  refine ⟨by decide, fun p s rest a b i hin hkeep hd hi ho2 => ?_⟩
  obtain ⟨hshape, hbound⟩ := keepsCommandDuty_of_instr hkeep hd
  rw [step_of_instr hin hd]
  exact exec_of_keepsO2Bound hi hshape hbound ho2 { s with inputs := rest }

/-- Settles O52: the length of the answer is that of the table's shape, whichever class of words the command is of. -/
theorem tableShapeDutyGivesTableFrames : Obligations.TableShapeDutyGivesTableFrames := by
  intro a b s i hi hkeep
  have htxlen {shape : FrameShape} (hshape : tableShape a = some shape) :=
    answerOf_txlen_of_keepsTableShape hi hkeep hshape s.acc
  refine ⟨_, _, exec_eq_servedState i s, servedState_rsp i s, fun ha => ?_, fun ha => ?_, ?_⟩
  · exact htxlen (tableShape_of_twoByteWord ha)
  · exact htxlen (tableShape_of_fiveByteWord ha)
  · rintro rfl
    exact htxlen rfl

/-! ### The reply duties: what the validators report (R90, items 1, 2 and 4) -/

/-- A presentation that keeps the reply duties and runs an instruction keeps each of the three for it. -/
theorem keepsReplyDuties_of_instr {p : Presentation} {i : Instr} (hkeep : p.keepsReplyDuties = true)
    (hd : decode p.request = .instr i) :
    keepsReadInFull p.reply i = true ∧ keepsReplyKind p.reply i = true ∧ keepsDiscard p.reply i = true := by
  rw [Presentation.keepsReplyDuties, hd] at hkeep
  simpa only [Bool.and_eq_true, and_assoc] using hkeep

/-- Items 1 and 2 for a presentation whose operation uses the window: the reply its window was filled from. -/
theorem reply_of_keepsReplyDuties {p : Presentation} {i : Instr} {bytes : List Byte} {kind : ReplyKind}
    (hkeep : p.keepsReplyDuties = true) (hd : decode p.request = .instr i) (hbytes : windowBytes i = some bytes)
    (hkind : windowKind i = some kind) : ∃ y, p.reply = some y ∧ y.kind = kind ∧ y.report = .inFull bytes := by
  obtain ⟨hfull, hreply, -⟩ := keepsReplyDuties_of_instr hkeep hd
  exact reply_of_duties hbytes hkind hfull hreply

/-- A measurement reply is reported `OK` exactly when its CRC byte is right and not the sentinel (R66). -/
theorem measAnswer_st_eq_zero_iff (a b c : Byte) : (measAnswer a b c).st = 0 ↔ c ≠ 0 ∧ crc8 [a, b] = c := by
  have hst : (measAnswer a b c).st = (measCheck a b c).code := by
    unfold measAnswer
    cases measCheck a b c <;> rfl
  rw [hst, status_code_eq_zero_iff, measCheck_ok]

/-- A measurement reply reported `OK` is answered with its sample (R67, R68). -/
theorem measAnswer_r0_of_ok {a b c : Byte} (h : (measAnswer a b c).st = 0) : (measAnswer a b c).r0 = a ++ b := by
  rw [measAnswer, (measCheck_ok a b c).mpr ((measAnswer_st_eq_zero_iff a b c).mp h)]
  rfl

/-- Settles O55. -/
theorem replyDutiesGiveResultsOfWholeReplies : Obligations.ReplyDutiesGiveResultsOfWholeReplies := by
  intro p s rest hin hkeep
  refine ⟨fun a b c hd => ?_, fun x0 x1 x2 x3 x4 x5 x6 x7 x8 hd => ?_⟩
  · rcases hd with hd | hd
    all_goals
      obtain ⟨y, hy, hkind, hreport⟩ := reply_of_keepsReplyDuties hkeep hd rfl rfl
      exact ⟨y, _, _, hy, hkind, hreport, step_eq_servedState hin hd, servedState_rsp _ _,
        measAnswer_st_eq_zero_iff a b c, measAnswer_r0_of_ok⟩
  · obtain ⟨y, hy, hkind, hreport⟩ := reply_of_keepsReplyDuties hkeep hd rfl rfl
    exact ⟨y, _, _, hy, hkind, hreport, step_eq_servedState hin hd, servedState_rsp _ _, rfl, rfl, rfl⟩

/-! ### The reply duties: what is held -/

section
variable {a b c : Byte}

theorem goodSample_of_good (h : c ≠ 0 ∧ crc8 [a, b] = c) : goodSample [a, b, c] = some (a ++ b) := if_pos h

theorem goodSample_of_bad (h : ¬(c ≠ 0 ∧ crc8 [a, b] = c)) : goodSample [a, b, c] = none := if_neg h

end

/-- The reply behind a dutiful `VAL_MEAS` may be held exactly if the bytes of the window are a good sample. -/
theorem holdable_of_keepsReplyDuties {p : Presentation} {a b c : Byte} (hkeep : p.keepsReplyDuties = true)
    (hd : decode p.request = .instr (.valMeas a b c)) : p.reply.bind holdable = goodSample [a, b, c] := by
  obtain ⟨y, hy, hkind, hreport⟩ := reply_of_keepsReplyDuties hkeep hd rfl rfl
  obtain ⟨-, -, hdiscard⟩ := keepsReplyDuties_of_instr hkeep hd
  have hkept : y.toDiscard = false := by simpa [keepsDiscard, hy] using hdiscard
  simp only [hy, Option.bind_some, holdable, hkind, hkept, hreport, and_self, if_true]

/-- For a dutiful presentation the held sample told from the window is the one told from the reply. -/
theorem sampleAfterRequest_eq_sampleAfterReply {p : Presentation} (hkeep : p.keepsReplyDuties = true)
    (x : Sample × BitVec 1) : sampleAfterRequest x p.request = sampleAfterReply x p := by
  unfold sampleAfterRequest sampleAfterReply
  cases hd : decode p.request with
  | reservedBits => rfl
  | unlistedCommand cmd => rfl
  | instr i =>
    cases i
    case valMeas a b c =>
      rw [holdable_of_keepsReplyDuties hkeep hd]
      by_cases hgood : c ≠ 0 ∧ crc8 [a, b] = c
      · rw [goodSample_of_good hgood]
        exact if_pos hgood
      · rw [goodSample_of_bad hgood]
        exact if_neg hgood
    all_goals rfl

/-- Settles O56: the run holds what O47 tells from the windows, and each window is that of its reply. -/
theorem replyDutiesMakeTheHeldSampleAMeasurement : Obligations.ReplyDutiesMakeTheHeldSampleAMeasurement := by
  intro ps s rest hps hin
  have hpresentable : ∀ q ∈ ps.map Presentation.request, Presentable q :=
    List.forall_mem_map.mpr fun p hp => (hps p hp).1
  have hin' : s.inputs = (ps.map Presentation.request).map Input.present ++ rest := by
    rw [hin, List.map_map]
    rfl
  obtain ⟨t, hrun, hint, ht⟩ := heldSampleIsTheLastAccepted (ps.map Presentation.request) s rest hpresentable hin'
  rw [List.length_map] at hrun
  refine ⟨t, hrun, hint, ?_⟩
  rw [ht, List.foldl_map]
  exact List.foldl_ext _ _ _ fun x p hp => sampleAfterRequest_eq_sampleAfterReply (hps p hp).2 x

/-! ### The reset event -/

/-- Settles O2. -/
theorem resetEventSetsRegistersAndAnswersNothing : Obligations.ResetEventSetsRegistersAndAnswersNothing :=
  fun _ _ h => step_of_reset h

end Sys2Proof.Proofs
end

section
/-! Settles O43: the CRC byte step and the table of the vectors (95_test_vectors.md section 2.1). The eight shifts act on
`c ^^^ b` alone, so the steps from state zero give every step, and the table lists those. -/

namespace Sys2Proof.Proofs

open Sys2Proof.Machine Sys2Proof.Stated

/-- A byte step depends on the CRC state and the byte only through their XOR (R53). -/
theorem crc8Byte_eq_zero_state (c b : Byte) : crc8Byte c b = crc8Byte 0 (c ^^^ b) :=
  congrArg (crcShifts 8) (BitVec.zero_xor (x := c ^^^ b)).symm

/-- The transcribed entries are the byte steps from state zero, in the order of the byte: `T[i] = crc8_byte(0x00, i)`. -/
theorem crcTable_eq_ofFn : crcTable = List.ofFn fun i : Fin 256 => crc8Byte 0 (BitVec.ofFin i) := by
  decide +kernel

/-- So a byte looks up the byte step from state zero. -/
theorem crcTable_getElem?_toNat (x : Byte) : crcTable[x.toNat]? = some (crc8Byte 0 x) := by
  rw [crcTable_eq_ofFn, List.getElem?_ofFn]
  exact dif_pos x.isLt

/-- Settles O43. -/
theorem crcByteStepIsTheTable : Obligations.CrcByteStepIsTheTable := by
  intro c b
  rw [crcTable_getElem?_toNat, crc8Byte_eq_zero_state c b]

end Sys2Proof.Proofs
end
